-- ==== Sys2Proof/Word.lean ====
section
/-! DEFINITION. The words of the part (bytes, samples, 32-bit counts) and the fixed collections its records come in:
four of a kind (lanes, slots of a lane, stores) and a bank of sixteen lane channels beside four store endpoints. -/

namespace Sys2Proof

/-- A byte of a frame, a record or a tag (section 0.7). -/
abbrev Byte := BitVec 8

/-- A sample: 24-bit two's complement (section 0.7, R163). -/
abbrev Sample := BitVec 24

/-- An index from 0 to 3: a lane of one kind, a slot of a lane, a store. -/
inductive Idx
  | i0 | i1 | i2 | i3
  deriving DecidableEq, Repr

namespace Idx

def toNat : Idx → Nat
  | i0 => 0 | i1 => 1 | i2 => 2 | i3 => 3

def ofNat? : Nat → Option Idx
  | 0 => some i0 | 1 => some i1 | 2 => some i2 | 3 => some i3 | _ => none

/-- The four indexes in ascending order. -/
def all : List Idx := [i0, i1, i2, i3]

end Idx

/-- Four things of a kind, one for each index. -/
structure Quad (α : Type) where
  q0 : α
  q1 : α
  q2 : α
  q3 : α
  deriving DecidableEq, Repr

namespace Quad

def const (a : α) : Quad α := ⟨a, a, a, a⟩

def get (q : Quad α) : Idx → α
  | .i0 => q.q0 | .i1 => q.q1 | .i2 => q.q2 | .i3 => q.q3

def set (q : Quad α) (i : Idx) (a : α) : Quad α :=
  match i with
  | .i0 => { q with q0 := a } | .i1 => { q with q1 := a } | .i2 => { q with q2 := a } | .i3 => { q with q3 := a }

/-- The quad whose entry at each index is `f` of the index. -/
def tab (f : Idx → α) : Quad α := ⟨f .i0, f .i1, f .i2, f .i3⟩

def toList (q : Quad α) : List α := [q.q0, q.q1, q.q2, q.q3]

end Quad

/-- Twenty things of a kind: one for each lane channel (lane, then slot) and one for each store (Table 0.3). -/
structure Bank (α : Type) where
  chan  : Quad (Quad α)
  store : Quad α
  deriving DecidableEq, Repr

end Sys2Proof
end

