-- ==== Sys2Proof/Syntax.lean ====
section
/-! DEFINITION. The names the commands of the OJ-2440 use (ports, domains, rates, endpoints, lanes) and the commands
themselves: one constructor of `Instr` for each row of spec/opcode_table.json. A host command carries its port, its
sequence byte and its parameter bytes as they stood in the frame (R156, R159). -/

namespace Sys2Proof

/-- A host port (section 0.3). -/
inductive Port
  | hp0 | hp1 | hp2
  deriving DecidableEq, Repr

/-- One thing for each host port. -/
structure PerPort (α : Type) where
  p0 : α
  p1 : α
  p2 : α
  deriving DecidableEq, Repr

namespace PerPort

def const (a : α) : PerPort α := ⟨a, a, a⟩

def get (v : PerPort α) : Port → α
  | .hp0 => v.p0 | .hp1 => v.p1 | .hp2 => v.p2

def set (v : PerPort α) (p : Port) (a : α) : PerPort α :=
  match p with
  | .hp0 => { v with p0 := a } | .hp1 => { v with p1 := a } | .hp2 => { v with p2 := a }

/-- The family whose entry at each port is `f` of the port. -/
def tab (f : Port → α) : PerPort α := ⟨f .hp0, f .hp1, f .hp2⟩

end PerPort

/-- A clock domain (section 0.8). -/
inductive Domain
  | fa | fb | fx
  deriving DecidableEq, Repr

/-- A sample rate: rate codes 1 to 5 of Table 0.5. -/
inductive Rate
  | r32000 | r44100 | r48000 | r88200 | r96000
  deriving DecidableEq, Repr

/-- A source endpoint: slot `slot` of input lane `lane` (channel I(4 × lane + slot)), or a store output (Table 0.3). -/
inductive Source
  | input (lane slot : Idx)
  | storeOut (n : Idx)
  deriving DecidableEq, Repr

/-- A sink endpoint: slot `slot` of output lane `lane` (channel O(4 × lane + slot)), or a store input (Table 0.3). -/
inductive Sink
  | output (lane slot : Idx)
  | storeIn (n : Idx)
  deriving DecidableEq, Repr

/-- One of the 40 endpoints (Table 0.3). -/
inductive Endpoint
  | source (e : Source)
  | sink (t : Sink)
  deriving DecidableEq, Repr

/-- One of the eight lanes (section 0.6). -/
inductive LaneId
  | input (i : Idx)
  | output (i : Idx)
  deriving DecidableEq, Repr

/-- The three wires of a lane (R92, R96, Table 9.3). -/
inductive LaneWire
  | bitClock | frameSync | data
  deriving DecidableEq, Repr

/-- What one input lane received in the interval it judges at a boundary (R92): how many bit-clock periods the interval
had, at which of them a frame sync arrived, and the last complete 128-bit lane frame received before the boundary. -/
structure LaneRx where
  bits  : Nat
  syncs : List Nat
  frame : BitVec 128
  deriving DecidableEq, Repr

/-- For each port, the choices that settle the order in which its event queue takes the events of the unrelated
happenings of one step, where the spec leaves that order open (R139; log entry 7). The empty list takes them in the
model's own order. -/
abbrev Picks := PerPort (List Nat)

/-- The commands: one constructor for each row of spec/opcode_table.json. -/
inductive Instr
  -- host commands of Table 10.2: the port, the sequence byte, the parameter bytes
  | openSession      (p : Port) (seq : Byte) (params : List Byte)
  | closeSession     (p : Port) (seq : Byte) (params : List Byte)
  | describeEndpoint (p : Port) (seq : Byte) (params : List Byte)
  | setTag           (p : Port) (seq : Byte) (params : List Byte)
  | findTag          (p : Port) (seq : Byte) (params : List Byte)
  | setLane          (p : Port) (seq : Byte) (params : List Byte)
  | setRate          (p : Port) (seq : Byte) (params : List Byte)
  | queryDomain      (p : Port) (seq : Byte) (params : List Byte)
  | connect          (p : Port) (seq : Byte) (params : List Byte)
  | disconnect       (p : Port) (seq : Byte) (params : List Byte)
  | setGain          (p : Port) (seq : Byte) (params : List Byte)
  | adopt            (p : Port) (seq : Byte) (params : List Byte)
  | queryRoute       (p : Port) (seq : Byte) (params : List Byte)
  | listRoutes       (p : Port) (seq : Byte) (params : List Byte)
  | querySink        (p : Port) (seq : Byte) (params : List Byte)
  | setTrim          (p : Port) (seq : Byte) (params : List Byte)
  | resetMeter       (p : Port) (seq : Byte) (params : List Byte)
  | configureStore   (p : Port) (seq : Byte) (params : List Byte)
  | storeWrite       (p : Port) (seq : Byte) (params : List Byte)
  | storeRead        (p : Port) (seq : Byte) (params : List Byte)
  | flushStore       (p : Port) (seq : Byte) (params : List Byte)
  | queryStore       (p : Port) (seq : Byte) (params : List Byte)
  | readEvents       (p : Port) (seq : Byte) (params : List Byte)
  | ackEvents        (p : Port) (seq : Byte) (params : List Byte)
  -- the other transactions of a port
  /-- `clocked` is how many answer bytes the master clocks after the first byte of the transaction (R148). -/
  | fetch            (p : Port) (clocked : Nat)
  /-- `bytes` are the whole bytes received in the transaction (R146). -/
  | frameError       (p : Port) (bytes : List Byte)
  | unknownCommand   (p : Port) (code seq : Byte) (params : List Byte)
  | frameDiscarded   (p : Port) (bytes : List Byte)
  -- the reset inputs
  | portReset        (p : Port)
  | portResetRelease (p : Port)
  | deviceReset
  -- happenings at the Clock Domain Unit
  | lockComplete     (d : Domain)
  | clockFound       (r : Rate)
  | clockLost
  | holdoverExpired
  /-- `rx` is what each input lane received in the frame it judges. -/
  | frameBoundary    (d : Domain) (rx : Quad LaneRx) (order : Picks)
  -- reports taken at the Route Table and the Lane Units
  | routeTableDomainStop  (d : Domain) (order : Picks)
  | routeTableDomainStart (d : Domain) (order : Picks)
  | laneDomainStop   (d : Domain) (order : Picks)
  | laneDomainStart  (d : Domain)
  | sourcesDown      (lane : Idx) (order : Picks)
  | sourcesUp        (lane : Idx) (order : Picks)
  -- happenings at the Sink Arbiter
  | grant            (t : Sink)
  | waitTimeout      (id : Nat)
  -- completion of a command, and the release of RESET
  | commandCompletes (p : Port)
  | resetRelease
  deriving DecidableEq, Repr

end Sys2Proof
end

