-- ==== Sys2Proof/Machine/State.lean ====
section
/-! DEFINITION. The state of the OJ-2440: every record the manual gives it, as plain data, and `State.reset`. -/

namespace Sys2Proof.Machine

/-! ### Host Port Units (chapter 9) -/

/-- Result codes (Table 10.7, R161). -/
inductive Result
  | ok | frameError | unknownCommand | badLength | noSession | sessionOpen | badArgument | noSuchEndpoint
  | notASource | notASink | laneDisabled | laneInUse | domainMismatch | domainBusy | loop | tableFull
  | quotaExceeded | queueFull | sinkBusy | noSuchRoute | notOwner | notOrphan | badState | storeBusy
  | storeUnconfigured | noMemory
  deriving DecidableEq, Repr

/-- What a response record says besides its marker, lengths and CRC (R148, R158). -/
structure Response where
  seq     : Byte
  result  : Result
  payload : List Byte
  deriving DecidableEq, Repr

/-- The response holder (R147). In EXECUTING it keeps the response the running command will give. -/
inductive Holder
  | empty
  | executing (r : Response)
  | ready (r : Response)
  | fetched (r : Response)
  deriving DecidableEq, Repr

/-- The link state of a port (R145). -/
inductive Link
  | idle | command | fetch | held
  deriving DecidableEq, Repr

/-- A transaction in progress on the wires of a port (R145, R148). -/
structure Transfer where
  /-- The bits taken from SDIn. -/
  bits    : List Bool
  /-- In a FETCH, the holder as it stood when the first byte had been taken: it decides the answer (R148). -/
  fetched : Option Holder
  /-- The place in the transaction of the bit that stands on SDOn, which changes on falling edges of SCKn. -/
  outBit  : Nat
  deriving DecidableEq, Repr

/-- One Host Port Unit. -/
structure PortUnit where
  link         : Link
  /-- The level at the pin CSn is low (R145, R155). -/
  csLow        : Bool
  /-- The transaction in progress, none while there is none (R145). -/
  transfer     : Option Transfer
  holder       : Holder
  /-- The effects of an assertion of PRSTn wait for the executing command (R131, R153). -/
  resetWaiting : Bool
  /-- The bytes sent on SDOn in the port's last whole transaction, from its second byte on for a FETCH (R145, R148): the
  model's own record of an output (log entry 2). -/
  sent         : List Byte
  /-- Counts the free levels of SDOn, so that each is drawn afresh: the model's own (log entry 26). -/
  stray        : Nat
  deriving DecidableEq, Repr

/-! ### Sessions (chapter 7) -/

/-- A session record (Table 7.1). -/
structure Session where
  isOpen : Bool
  epoch  : Byte
  owned  : Nat
  deriving DecidableEq, Repr

/-! ### Routes (chapter 1) -/

/-- The causes a released route carries (section 1.8). -/
inductive ReleaseCause
  | disconnected | preempted | waitTimeout | endpointDisabled
  deriving DecidableEq, Repr

/-- Why a route may not sound (R13, R14). -/
inductive SuspendCause
  | domainDown | sourceDown
  deriving DecidableEq, Repr

/-- A non-empty set of suspend causes (Table 1.1). -/
inductive Causes
  | domainDown | sourceDown | both
  deriving DecidableEq, Repr

/-- What is done when a ramp-down reaches gain 0 (Table 1.1). -/
inductive Pending
  | disconnected | preempted
  deriving DecidableEq, Repr

/-- The six states of a route, each with the fields present only in it (R1). The wait time left is a count of periods
of XREF (R43); none waits without limit. -/
inductive RouteState
  | waiting (left : Option Nat)
  | armed
  | rampUp
  | live
  | rampDown (outcome : Pending)
  | suspended (causes : Causes)
  deriving DecidableEq, Repr

/-- The flags a route record keeps (R1, R5). -/
structure RouteFlags where
  persist : Bool
  requeue : Bool
  notify  : Bool
  deriving DecidableEq, Repr

/-- A route record (Table 1.1). -/
structure Route where
  id        : Nat
  owner     : Option Port
  /-- The former owner of an orphan, which ROUTE_ORPHANED carries (R123, R128); none while the route has an owner. -/
  former    : Option Port
  epoch     : Byte
  source    : Source
  sink      : Sink
  domain    : Domain
  priority  : Nat
  flags     : RouteFlags
  target    : Nat
  current   : Nat
  rampRate  : Nat
  rampCount : Nat
  state     : RouteState
  deriving DecidableEq, Repr

/-! ### Endpoints and lanes (chapter 5) -/

/-- Four characters (R87). -/
abbrev Tag := Quad Byte

/-- The directory entry of a source (Table 5.1). -/
structure SourceEntry where
  tag    : Tag
  fanOut : Nat
  deriving DecidableEq, Repr

/-- The directory entry of a sink (Table 5.1). -/
structure SinkEntry where
  tag    : Tag
  holder : Option Nat
  deriving DecidableEq, Repr

/-- Lane states (Table 5.2). -/
inductive LaneState
  | disabled | seeking | running | fault
  deriving DecidableEq, Repr

/-- What an output lane drives on its three wires until the next boundary of its domain (R96): nothing but low; the lane frame
that began at the last boundary; or, after a SET_LANE under a domain that runs, what the manual does not say, by a number of the
draw of a free value (log entry 11). -/
inductive Sending
  | low
  | frame (bits : BitVec 128)
  | unframed (draw : Nat)
  deriving DecidableEq, Repr

/-- A lane record (Table 5.2). `syncPhase` (input lanes) is how many bits, modulo 128, have passed since the frame sync
of the last frame judged good (R92); `wires` (output lanes) is what the lane sends (R96). -/
structure Lane where
  enabled   : Bool
  binding   : Domain
  state     : LaneState
  goodRun   : Nat
  badRun    : Nat
  syncPhase : Option Nat
  wires     : Sending
  deriving DecidableEq, Repr

/-! ### Clock domains (chapter 4) -/

/-- States of FA and FB (Table 4.2). -/
inductive IntState
  | off | locking | locked
  deriving DecidableEq, Repr

/-- The record of FA or FB (Table 4.1); no rate is rate code 0, OFF. -/
structure IntDomain where
  rateCode   : Option Rate
  state      : IntState
  frameCount : BitVec 32
  deriving DecidableEq, Repr

/-- States of FX with the measured rate and the holdover time left, a count of periods of XREF, where they are present
(Table 4.1). -/
inductive FxState
  | off
  | seeking
  | locking (measured : Rate)
  | locked (measured : Rate)
  | holdover (measured : Rate) (left : Nat)
  deriving DecidableEq, Repr

/-- The record of FX (Table 4.1). `external` is rate code 6, its absence rate code 0. -/
structure FxDomain where
  external   : Bool
  state      : FxState
  frameCount : BitVec 32
  deriving DecidableEq, Repr

/-- The word-clock monitor (R73): its judgement, and whether the clock found of an entry into SEEKING is outstanding. -/
structure Monitor where
  clock     : Option Rate
  reportDue : Bool
  deriving DecidableEq, Repr

/-- A report on its way to the Route Table (R69, R95). -/
inductive RouteReport
  | domainStop (d : Domain)
  | domainStart (d : Domain)
  | sourcesDown (lane : Idx)
  | sourcesUp (lane : Idx)
  deriving DecidableEq, Repr

/-- A report on its way to the Lane Units (R69). -/
inductive LaneReport
  | domainStop (d : Domain)
  | domainStart (d : Domain)
  deriving DecidableEq, Repr

/-! ### Frame Path (chapter 3) -/

/-- What the Frame Path keeps for an output channel (R61, R62). -/
structure Channel where
  trim  : Nat
  peak  : Nat
  clips : Nat
  deriving DecidableEq, Repr

/-! ### Stores (chapter 6) -/

/-- A store record (Table 6.1). `ring` holds the samples from the read position on, oldest first, so its length is the
fill. -/
structure Store where
  capacity   : Nat
  keepNew    : Bool
  lowMark    : Nat
  highMark   : Nat
  writePos   : Nat
  readPos    : Nat
  ring       : List Sample
  binding    : Option Domain
  underrunEp : Bool
  overrunEp  : Bool
  aboveLow   : Bool
  atHigh     : Bool
  accepted   : BitVec 32
  delivered  : BitVec 32
  discarded  : BitVec 32
  rejected   : BitVec 32
  underruns  : Nat
  deriving DecidableEq, Repr

/-! ### Event queues (chapter 8) -/

/-- Domain states as events and reports carry them (Table 10.3). -/
inductive DomainState
  | off | seeking | locking | locked | holdover
  deriving DecidableEq, Repr

/-- The events of Table 8.2, each with the fields its row says are present. -/
inductive Event
  | routeGranted (id : Nat) (t : Sink)
  | routeLive (id : Nat) (t : Sink) (gain : Nat)
  | gainReached (id : Nat) (t : Sink) (gain : Nat)
  | routeSuspended (id : Nat) (t : Sink) (cause : SuspendCause)
  | routeRequeued (id : Nat) (t : Sink) (place : Nat)
  | routeReleased (id : Nat) (t : Sink) (cause : ReleaseCause)
  | routeOrphaned (id : Nat) (t : Sink) (d : Domain) (outcome : Option Pending) (former : Port) (epoch : Byte)
  | routeAdopted (id : Nat) (t : Sink) (d : Domain) (adopter : Port) (epoch : Byte)
  | domainState (d : Domain) (st : DomainState) (rateCode : Nat)
  | rateChanged (d : Domain) (rateCode : Nat)
  | laneState (l : LaneId) (d : Domain) (st : LaneState)
  | laneChanged (l : LaneId) (d : Domain) (enable : Bool)
  | storeUnderrun (n : Idx) (fill : Nat)
  | storeOverrun (n : Idx) (fill : Nat)
  | storeLow (n : Idx) (fill : Nat)
  | storeHigh (n : Idx) (fill : Nat)
  | storeConfigured (n : Idx) (capacity : Nat)
  | tagChanged (e : Endpoint) (tag : Tag)
  | trimChanged (lane slot : Idx) (trim : Nat)
  | lost (count : Nat)
  deriving DecidableEq, Repr

/-- An entry of an event queue (R135). -/
structure Entry where
  seq : BitVec 16
  ev  : Event
  deriving DecidableEq, Repr

/-- The event queue of a port with its next sequence number (R136, R138). -/
structure EventQueue where
  entries : List Entry
  nextSeq : BitVec 16
  deriving DecidableEq, Repr

/-! ### Outcomes other than a next state -/

/-- Why the machine stops with a fault. There is no reason: the manual gives every command an effect in every state
(refusals of commands are result codes, R161), so this type has no constructor and no step ends in a fault. -/
inductive Fault
  deriving DecidableEq, Repr

/-- Why a command has no meaning. -/
inductive Refusal
  /-- Raised by `exec` for a row of the opcode table the model gives no meaning; safe. No arm raises it. -/
  | notModelled (mnemonic : String)
  deriving DecidableEq, Repr

/-- The state of the part, and the queue of the commands waiting to be taken. -/
structure State where
  /-- The commands waiting, first in, first out: the model's own. -/
  pending      : List Instr
  /-- RESET is asserted (R154). -/
  resetHeld    : Bool
  ports        : PerPort PortUnit
  sessions     : PerPort Session
  queues       : PerPort EventQueue
  /-- The Route Table, in ascending order of route id (R2). -/
  routes       : List Route
  /-- The claim queues, head first (R26). -/
  claims       : Bank (List Nat)
  sources      : Bank SourceEntry
  sinks        : Bank SinkEntry
  inLanes      : Quad Lane
  outLanes     : Quad Lane
  fa           : IntDomain
  fb           : IntDomain
  fx           : FxDomain
  monitor      : Monitor
  routeReports : List RouteReport
  laneReports  : List LaneReport
  /-- The output channels, by lane and slot. -/
  channels     : Quad (Quad Channel)
  stores       : Quad Store
  /-- How many free values have been drawn: the model's own (log entry 11). -/
  freeDraws    : Nat
  deriving DecidableEq, Repr

/-! ### After device reset -/

/-- A default tag: two letters and a two-digit number (Table 0.3). -/
def defaultTag (a b : Nat) (n : Nat) : Tag :=
  ⟨.ofNat 8 a, .ofNat 8 b, .ofNat 8 (48 + n / 10), .ofNat 8 (48 + n % 10)⟩

/-- A port after device reset (R145, R147). The pin CSn and the model's own fields: log entries 2, 20, 26. -/
def PortUnit.reset : PortUnit :=
  { link := .idle, csLow := false, transfer := none, holder := .empty, resetWaiting := false, sent := [], stray := 0 }

/-- Table 7.1. -/
def Session.reset : Session := { isOpen := false, epoch := 0, owned := 0 }

/-- R136, R144. -/
def EventQueue.reset : EventQueue := { entries := [], nextSeq := 0 }

/-- Table 5.2. -/
def Lane.reset : Lane :=
  { enabled := false, binding := .fa, state := .disabled, goodRun := 0, badRun := 0, syncPhase := none, wires := .low }

/-- R65. -/
def Channel.reset : Channel := { trim := 0, peak := 0, clips := 0 }

/-- Table 6.1. -/
def Store.reset : Store :=
  { capacity := 0, keepNew := false, lowMark := 0, highMark := 0, writePos := 0, readPos := 0, ring := [],
    binding := none, underrunEp := false, overrunEp := false, aboveLow := false, atHigh := false, accepted := 0,
    delivered := 0, discarded := 0, rejected := 0, underruns := 0 }

/-- The part after device reset, RESET released: every record at the value the chapters state (R2, R26, R65, R67, R73,
R86, R91, R103, R121, R136, R145, R147). The model's own fields: log entries 2, 10, 11, 20, 26. -/
def State.reset : State :=
  { pending := [],
    resetHeld := false,
    ports := .const .reset,
    sessions := .const .reset,
    queues := .const .reset,
    routes := [],
    claims := { chan := .const (.const []), store := .const [] },
    -- IN00 to IN15, SO00 to SO03
    sources :=
      { chan := .tab fun l => .tab fun k => { tag := defaultTag 73 78 (4 * l.toNat + k.toNat), fanOut := 0 },
        store := .tab fun n => { tag := defaultTag 83 79 n.toNat, fanOut := 0 } },
    -- OU00 to OU15, SI00 to SI03
    sinks :=
      { chan := .tab fun l => .tab fun k => { tag := defaultTag 79 85 (4 * l.toNat + k.toNat), holder := none },
        store := .tab fun n => { tag := defaultTag 83 73 n.toNat, holder := none } },
    inLanes := .const .reset,
    outLanes := .const .reset,
    fa := { rateCode := some .r48000, state := .locking, frameCount := 0 },
    fb := { rateCode := some .r44100, state := .locking, frameCount := 0 },
    fx := { external := false, state := .off, frameCount := 0 },
    monitor := { clock := none, reportDue := false },
    routeReports := [],
    laneReports := [],
    channels := .const (.const .reset),
    stores := .const .reset,
    freeDraws := 0 }

end Sys2Proof.Machine
end

