-- ==== Sys2Proof/Machine/Operands.lean ====
section
/-! DEFINITION. Reading the parameter bytes of commands and writing the numbers that stand for every name (R157, Table
10.3): wire numbers, lane codes, domains, ports, states, causes, and multi-byte fields. -/

namespace Sys2Proof.Machine

/-! ### Multi-byte fields: most significant byte first (section 0.7) -/

def byteOf (n : Nat) : Byte := .ofNat 8 n

def bytes2 (n : Nat) : List Byte := [byteOf (n / 256), byteOf n]

def bytes3 (n : Nat) : List Byte := [byteOf (n / 65536), byteOf (n / 256), byteOf n]

def bytes4 (n : Nat) : List Byte := [byteOf (n / 16777216), byteOf (n / 65536), byteOf (n / 256), byteOf n]

def nat2 (hi lo : Byte) : Nat := 256 * hi.toNat + lo.toNat

/-- A sample from its three bytes, most significant first (R163). -/
def sampleOf (a b c : Byte) : Sample := .ofNat 24 (65536 * a.toNat + 256 * b.toNat + c.toNat)

/-- A sample as three bytes (R163). -/
def sampleBytes (x : Sample) : List Byte := bytes3 x.toNat

/-- The samples a run of bytes carries, three bytes each. -/
def samplesOf : List Byte → List Sample
  | a :: b :: c :: rest => sampleOf a b c :: samplesOf rest
  | _ => []

def flagByte (b : Bool) : Byte := if b then 1#8 else 0#8

/-! ### Endpoints (Table 0.3) -/

/-- The index `n mod 4`. -/
def Idx.ofMod (n : Nat) : Idx :=
  match n % 4 with
  | 0 => .i0 | 1 => .i1 | 2 => .i2 | _ => .i3

/-- The channel number of a slot of a lane: 4 × lane + slot (R86). -/
def channelNo (lane slot : Idx) : Nat := 4 * lane.toNat + slot.toNat

def Source.wire : Source → Nat
  | .input l k => channelNo l k
  | .storeOut n => 36 + n.toNat

def Sink.wire : Sink → Nat
  | .output l k => 16 + channelNo l k
  | .storeIn n => 32 + n.toNat

def Endpoint.wire : Endpoint → Nat
  | .source e => Source.wire e
  | .sink t => Sink.wire t

/-- The endpoint a wire number names; none above 39. -/
def endpoint? (n : Nat) : Option Endpoint :=
  if n < 16 then some (.source (.input (Idx.ofMod (n / 4)) (Idx.ofMod n)))
  else if n < 32 then some (.sink (.output (Idx.ofMod ((n - 16) / 4)) (Idx.ofMod n)))
  else if n < 36 then some (.sink (.storeIn (Idx.ofMod n)))
  else if n < 40 then some (.source (.storeOut (Idx.ofMod n)))
  else none

/-- The forty endpoints in ascending order of wire number. -/
def allEndpoints : List Endpoint := (List.range 40).filterMap endpoint?

def allSources : List Source := allEndpoints.filterMap fun
  | .source e => some e
  | .sink _ => none

def allSinks : List Sink := allEndpoints.filterMap fun
  | .sink t => some t
  | .source _ => none

/-- Endpoint kinds: 0 input channel, 1 output channel, 2 store input, 3 store output. -/
def Endpoint.kind : Endpoint → Nat
  | .source (.input _ _) => 0
  | .sink (.output _ _) => 1
  | .sink (.storeIn _) => 2
  | .source (.storeOut _) => 3

/-! ### Lanes, domains, rates, ports -/

/-- 0x40 to 0x43 for IL0 to IL3, 0x44 to 0x47 for OL0 to OL3. -/
def LaneId.code : LaneId → Nat
  | .input i => 0x40 + i.toNat
  | .output i => 0x44 + i.toNat

def lane? (b : Byte) : Option LaneId :=
  if 0x40 ≤ b.toNat ∧ b.toNat < 0x44 then some (.input (Idx.ofMod b.toNat))
  else if 0x44 ≤ b.toNat ∧ b.toNat < 0x48 then some (.output (Idx.ofMod b.toNat))
  else none

def Domain.code : Domain → Nat
  | .fa => 0 | .fb => 1 | .fx => 2

/-- 0xFF for no binding. -/
def bindingByte : Option Domain → Byte
  | some d => byteOf (Domain.code d)
  | none => 0xFF#8

def domain? (b : Byte) : Option Domain :=
  match b.toNat with
  | 0 => some .fa | 1 => some .fb | 2 => some .fx | _ => none

/-- A store number 0 to 3. -/
def store? (b : Byte) : Option Idx := Idx.ofNat? b.toNat

/-- Rate codes 1 to 5 (Table 0.5). -/
def Rate.code : Rate → Nat
  | .r32000 => 1 | .r44100 => 2 | .r48000 => 3 | .r88200 => 4 | .r96000 => 5

def Rate.ofCode? : Nat → Option Rate
  | 1 => some .r32000 | 2 => some .r44100 | 3 => some .r48000 | 4 => some .r88200 | 5 => some .r96000 | _ => none

/-- The rate code of FA or FB: 0 is OFF. -/
def rateCodeOf : Option Rate → Nat
  | some r => Rate.code r
  | none => 0

/-- Samples per second (Table 0.5). -/
def Rate.hz : Rate → Nat
  | .r32000 => 32000 | .r44100 => 44100 | .r48000 => 48000 | .r88200 => 88200 | .r96000 => 96000

def Port.code : Port → Nat
  | .hp0 => 0 | .hp1 => 1 | .hp2 => 2

def allPorts : List Port := [.hp0, .hp1, .hp2]

/-- 0xFF for NONE. -/
def ownerByte : Option Port → Byte
  | some p => byteOf (Port.code p)
  | none => 0xFF#8

/-- An owner value as LIST_ROUTES takes it: a port, or NONE. -/
def owner? (b : Byte) : Option (Option Port) :=
  match b.toNat with
  | 0 => some (some .hp0) | 1 => some (some .hp1) | 2 => some (some .hp2) | 255 => some none | _ => none

/-- 1 yes, 0 no. -/
def yesNo? (b : Byte) : Option Bool :=
  match b.toNat with
  | 0 => some false | 1 => some true | _ => none

/-! ### State and cause codes (Table 10.3) -/

def RouteState.code : RouteState → Nat
  | .waiting _ => 1 | .armed => 2 | .rampUp => 3 | .live => 4 | .rampDown _ => 5 | .suspended _ => 6

def DomainState.code : DomainState → Nat
  | .off => 0 | .seeking => 1 | .locking => 2 | .locked => 3 | .holdover => 4

def LaneState.code : LaneState → Nat
  | .disabled => 0 | .seeking => 1 | .running => 2 | .fault => 3

def ReleaseCause.code : ReleaseCause → Nat
  | .disconnected => 1 | .preempted => 2 | .waitTimeout => 3 | .endpointDisabled => 4

def SuspendCause.code : SuspendCause → Nat
  | .domainDown => 5 | .sourceDown => 6

/-- A pending outcome as the cause it will give. -/
def Pending.code : Pending → Nat
  | .disconnected => 1 | .preempted => 2

def Result.code : Result → Nat
  | .ok => 0x00 | .frameError => 0x01 | .unknownCommand => 0x02 | .badLength => 0x03 | .noSession => 0x04
  | .sessionOpen => 0x05 | .badArgument => 0x06 | .noSuchEndpoint => 0x07 | .notASource => 0x08 | .notASink => 0x09
  | .laneDisabled => 0x0A | .laneInUse => 0x0B | .domainMismatch => 0x0C | .domainBusy => 0x0D | .loop => 0x0E
  | .tableFull => 0x0F | .quotaExceeded => 0x10 | .queueFull => 0x11 | .sinkBusy => 0x12 | .noSuchRoute => 0x13
  | .notOwner => 0x14 | .notOrphan => 0x15 | .badState => 0x16 | .storeBusy => 0x17 | .storeUnconfigured => 0x18
  | .noMemory => 0x19

/-! ### Time: milliseconds on the wire, periods of XREF inside (R43, R76, R155) -/

/-- Periods in one millisecond of the 24.576 MHz clock at the pin XREF (R155, Table 9.3), which times the waits and the holdover
(R43, R76). -/
def xrefPerMs : Nat := 24576

def msToXref (ms : Nat) : Nat := ms * xrefPerMs

/-- Whole milliseconds, rounded up. -/
def xrefToMs (n : Nat) : Nat := (n + (xrefPerMs - 1)) / xrefPerMs

/-! ### Tags (R87, R89) -/

def Tag.bytes (t : Tag) : List Byte := t.toList

/-- Up to four characters, completed with spaces at the end (R89). -/
def padTag (chars : List Byte) : Tag :=
  let at4 := fun i => chars.getD i 0x20#8
  ⟨at4 0, at4 1, at4 2, at4 3⟩

/-- Every character is from 0x20 to 0x7E (R87). -/
def tagPrintable (t : Tag) : Bool := t.toList.all fun b => decide (0x20 ≤ b.toNat) && decide (b.toNat ≤ 0x7E)

/-! ### The parameters of CONNECT (R5, Table 10.6) -/

/-- The parameter bytes of a CONNECT, and the domain byte when its length is 9 (R156). -/
structure ConnectBytes where
  source   : Byte
  sink     : Byte
  priority : Byte
  flags    : Byte
  target   : Byte
  rampRate : Byte
  timeout  : Nat
  domain   : Option Byte
  deriving DecidableEq, Repr

def connectBytes? : List Byte → Option ConnectBytes
  | [a, b, c, d, e, f, g, h] => some ⟨a, b, c, d, e, f, nat2 g h, none⟩
  | [a, b, c, d, e, f, g, h, i] => some ⟨a, b, c, d, e, f, nat2 g h, some i⟩
  | _ => none

end Sys2Proof.Machine
end

