-- ==== Sys2Proof/Machine/Ops.lean ====
section
/-! DEFINITION. The named operations over the records: looking a record up, changing it, appending events to the queues,
and the operations several commands share (claiming and freeing a sink, releasing, requeueing, suspending a route,
sending and taking the reports between blocks). -/

namespace Sys2Proof.Machine

/-! ### Limits (Table 0.6) -/

def maxRoutes : Nat := 48
def maxOwned : Nat := 24
def maxWaiters : Nat := 4
def maxEntries : Nat := 32
def maxBlocks : Nat := 64
def blockSamples : Nat := 256

/-! ### Records by name -/

def Bank.atSource (b : Bank α) : Source → α
  | .input l k => (b.chan.get l).get k
  | .storeOut n => b.store.get n

def Bank.setSource (b : Bank α) (e : Source) (a : α) : Bank α :=
  match e with
  | .input l k => { b with chan := b.chan.set l ((b.chan.get l).set k a) }
  | .storeOut n => { b with store := b.store.set n a }

def Bank.atSink (b : Bank α) : Sink → α
  | .output l k => (b.chan.get l).get k
  | .storeIn n => b.store.get n

def Bank.setSink (b : Bank α) (t : Sink) (a : α) : Bank α :=
  match t with
  | .output l k => { b with chan := b.chan.set l ((b.chan.get l).set k a) }
  | .storeIn n => { b with store := b.store.set n a }

namespace State

def port (s : State) (p : Port) : PortUnit := s.ports.get p

def setPort (s : State) (p : Port) (u : PortUnit) : State := { s with ports := s.ports.set p u }

def session (s : State) (p : Port) : Session := s.sessions.get p

def setSession (s : State) (p : Port) (x : Session) : State := { s with sessions := s.sessions.set p x }

def queue (s : State) (p : Port) : EventQueue := s.queues.get p

def setQueue (s : State) (p : Port) (q : EventQueue) : State := { s with queues := s.queues.set p q }

def claim (s : State) (t : Sink) : List Nat := Bank.atSink s.claims t

def setClaim (s : State) (t : Sink) (ids : List Nat) : State := { s with claims := Bank.setSink s.claims t ids }

def sourceEntry (s : State) (e : Source) : SourceEntry := Bank.atSource s.sources e

def setSourceEntry (s : State) (e : Source) (x : SourceEntry) : State :=
  { s with sources := Bank.setSource s.sources e x }

def sinkEntry (s : State) (t : Sink) : SinkEntry := Bank.atSink s.sinks t

def setSinkEntry (s : State) (t : Sink) (x : SinkEntry) : State := { s with sinks := Bank.setSink s.sinks t x }

def store (s : State) (n : Idx) : Store := s.stores.get n

def setStore (s : State) (n : Idx) (x : Store) : State := { s with stores := s.stores.set n x }

def lane (s : State) : LaneId → Lane
  | .input i => s.inLanes.get i
  | .output i => s.outLanes.get i

def setLane (s : State) (l : LaneId) (x : Lane) : State :=
  match l with
  | .input i => { s with inLanes := s.inLanes.set i x }
  | .output i => { s with outLanes := s.outLanes.set i x }

def channel (s : State) (lane slot : Idx) : Channel := (s.channels.get lane).get slot

def setChannel (s : State) (lane slot : Idx) (x : Channel) : State :=
  { s with channels := s.channels.set lane ((s.channels.get lane).set slot x) }

/-! ### The Route Table (R2) -/

/-- The route that holds an id at this moment. -/
def route? (s : State) (id : Nat) : Option Route := s.routes.find? fun r => r.id == id

/-- The record with this id becomes `r`. -/
def setRoute (s : State) (r : Route) : State :=
  { s with routes := s.routes.map fun x => if x.id = r.id then r else x }

/-- The record with this id leaves the table. -/
def dropRoute (s : State) (id : Nat) : State := { s with routes := s.routes.filter fun r => r.id != id }

end State

/-- A record put in its place in ascending order of id. -/
def insertRoute (r : Route) : List Route → List Route
  | [] => [r]
  | x :: xs => if r.id < x.id then r :: x :: xs else x :: insertRoute r xs

/-- The lowest id from 1 to 48 that no route holds (R2). -/
def lowestFreeId (routes : List Route) : Option Nat :=
  ((List.range maxRoutes).map (· + 1)).find? fun id => !(routes.any fun r => r.id == id)

/-- The route holds its sink (R3). -/
def RouteState.holds : RouteState → Bool
  | .waiting _ => false
  | .armed | .rampUp | .live | .rampDown _ | .suspended _ => true

/-- The route sounds: RAMP_UP, LIVE or RAMP_DOWN (R59, R108). -/
def RouteState.sounds : RouteState → Bool
  | .rampUp | .live | .rampDown _ => true
  | .waiting _ | .armed | .suspended _ => false

/-- The causes a route has: none unless it is SUSPENDED. -/
def RouteState.hasCause (st : RouteState) (c : SuspendCause) : Bool :=
  match st, c with
  | .suspended .both, _ => true
  | .suspended .domainDown, .domainDown => true
  | .suspended .sourceDown, .sourceDown => true
  | _, _ => false

/-- Store `n` has the source or the sink of the route among its endpoints (R107). -/
def usesStore (r : Route) (n : Idx) : Bool := r.source == .storeOut n || r.sink == .storeIn n

/-- The route has its source or its sink on a channel of the lane (R97). -/
def usesLane (r : Route) : LaneId → Bool
  | .input i => match r.source with
    | .input l _ => l == i
    | .storeOut _ => false
  | .output i => match r.sink with
    | .output l _ => l == i
    | .storeIn _ => false

namespace State

/-- The ids of the routes that satisfy a test, in ascending order. -/
def idsWhere (s : State) (p : Route → Bool) : List Nat := (s.routes.filter p).map (·.id)

/-- The holders of a domain (R78). -/
def holderCount (s : State) (d : Domain) : Nat := s.routes.countP fun r => r.domain == d && r.state.holds

/-- The waiting routes of a domain (R84). -/
def waiterCount (s : State) (d : Domain) : Nat := s.routes.countP fun r => r.domain == d && !r.state.holds

/-- The holders fed by a source (R86). -/
def feedCount (s : State) (e : Source) : Nat := s.routes.countP fun r => r.source == e && r.state.holds

/-- Routes whose owner is NONE. -/
def orphanCount (s : State) : Nat := s.routes.countP fun r => r.owner == none

/-- Blocks of sample memory no store has (R102). -/
def freeBlocks (s : State) : Nat :=
  maxBlocks - (s.stores.q0.capacity + s.stores.q1.capacity + s.stores.q2.capacity + s.stores.q3.capacity)

/-! ### Domains running and sources up -/

/-- A domain runs while it is LOCKED, and FX in HOLDOVER as well (section 4.2). -/
def running (s : State) : Domain → Bool
  | .fa => s.fa.state == .locked
  | .fb => s.fb.state == .locked
  | .fx => match s.fx.state with
    | .locked _ | .holdover _ _ => true
    | .off | .seeking | .locking _ => false

/-- A source is up while its input lane is RUNNING; a store output is up at all times (R95). -/
def sourceUp (s : State) : Source → Bool
  | .input l _ => (s.inLanes.get l).state == .running
  | .storeOut _ => true

/-- The state of a route that becomes holder: ARMED when its domain runs and its source is up, else SUSPENDED with the
causes that apply (R30, R35). -/
def holderState (s : State) (d : Domain) (e : Source) : RouteState :=
  match s.running d, s.sourceUp e with
  | true, true => .armed
  | false, true => .suspended .domainDown
  | true, false => .suspended .sourceDown
  | false, false => .suspended .both

end State

/-! ### Event queues (R136 to R139) -/

/-- An entry appended at the tail takes the next sequence number (R136). -/
def EventQueue.push (q : EventQueue) (ev : Event) : EventQueue :=
  { entries := q.entries ++ [{ seq := q.nextSeq, ev := ev }], nextSeq := q.nextSeq + 1 }

/-- The lost count of the marker at the tail, when the last entry is one (R138). -/
def EventQueue.marker? (q : EventQueue) : Option (BitVec 16 × Nat) :=
  match q.entries.getLast? with
  | some { seq := n, ev := .lost c } => some (n, c)
  | _ => none

/-- The queue takes an event in one of the three ways of R138. -/
def EventQueue.put (q : EventQueue) (ev : Event) : EventQueue :=
  match q.marker? with
  | some (n, c) =>
    { q with entries := q.entries.dropLast ++ [{ seq := n, ev := .lost (if c < 65535 then c + 1 else c) }] }
  | none => if q.entries.length < maxEntries - 1 then q.push ev else q.push (.lost 1)

/-- The recipients of an event (Table 8.2). -/
inductive Audience
  | only (p : Port)
  | everyOpen
  | everyOpenBut (p : Port)
  deriving DecidableEq, Repr

/-- An event a block makes, and for whom. -/
structure Emit where
  aud : Audience
  ev  : Event
  deriving DecidableEq, Repr

def Audience.has : Audience → Port → Bool
  | .only q, p => q == p
  | .everyOpen, _ => true
  | .everyOpenBut q, p => q != p

/-- The events of a run that are for a port, in order. -/
def eventsFor (p : Port) (es : List Emit) : List Event := (es.filter fun e => e.aud.has p).map (·.ev)

/-- A port whose session is OPEN takes the events in turn; those of a CLOSED port are dropped (R137). -/
def State.deliverTo (s : State) (p : Port) (evs : List Event) : State :=
  if (s.session p).isOpen then s.setQueue p (evs.foldl EventQueue.put (s.queue p)) else s

/-- Each port's queue takes its events on its own (R137). The events of one step reach every queue before those of the next
step, so the events of unrelated happenings of two steps stand in the same order in every queue, where R139 lets the orders
differ: the model's choice (log entry 7). -/
def State.deliver (s : State) (evs : PerPort (List Event)) : State :=
  ((s.deliverTo .hp0 evs.p0).deliverTo .hp1 evs.p1).deliverTo .hp2 evs.p2

/-- The events of one happening, appended in the order given (R139). -/
def State.post (s : State) (es : List Emit) : State := s.deliver (.tab fun p => eventsFor p es)

/-- One order in which several runs of events can be taken, each run keeping its own order: each number picks one of the
runs that still hold something and takes its head; when the numbers end, what is left follows run by run. -/
def interleave : List Nat → List (List α) → List α
  | [], runs => runs.flatten
  | k :: ks, runs =>
    let live := runs.filter fun r => !r.isEmpty
    match live[k % live.length]? with
    | some (x :: xs) => x :: interleave ks (live.set (k % live.length) xs)
    | _ => []

/-- The events of the unrelated happenings of one step: every queue takes each happening's events in their order, and
the happenings in an order of its own, which the picks choose (R139; log entry 7). -/
def State.postRuns (s : State) (order : Picks) (runs : List (List Emit)) : State :=
  s.deliver (.tab fun p => eventsFor p (interleave (order.get p) runs))

/-! ### Changes that make events -/

/-- A state reached and the events made on the way, not yet in the queues. -/
structure Eff where
  st  : State
  evs : List Emit
  deriving DecidableEq, Repr

/-- An event for the owner of a route; none when the owner is NONE (R137). -/
def tellOwner (r : Route) (ev : Event) : List Emit :=
  match r.owner with
  | some p => [{ aud := .only p, ev := ev }]
  | none => []

/-- One change at each of the routes with the given ids that still stand, in the order given, with the events of each. -/
def forRoutes (f : Route → State → Eff) : List Nat → State → State × List (List Emit)
  | [], s => (s, [])
  | id :: ids, s =>
    match s.route? id with
    | none => forRoutes f ids s
    | some r =>
      let e := f r s
      let rest := forRoutes f ids e.st
      (rest.1, e.evs :: rest.2)

/-- The same, as one happening whose events stand in that order. -/
def forRoutesInOrder (f : Route → State → Eff) (ids : List Nat) (s : State) : Eff :=
  let x := forRoutes f ids s
  { st := x.1, evs := x.2.flatten }

/-! ### Claim queues (R26 to R28) -/

/-- The priority of the route with an id. -/
def State.priorityOf (s : State) (id : Nat) : Nat :=
  match s.route? id with
  | some r => r.priority
  | none => 0

/-- Insertion immediately after the last entry whose priority is at least `p`, at the head when there is none (R27). -/
def insertClaim (prio : Nat → Nat) (p id : Nat) : List Nat → List Nat
  | [] => [id]
  | x :: xs => if (x :: xs).any fun y => decide (p ≤ prio y) then x :: insertClaim prio p id xs else id :: x :: xs

/-- The place of a route in a claim queue, 1 for the head; 0 when it does not stand there (R28). -/
def placeIn (id : Nat) (ids : List Nat) : Nat :=
  match ids.findIdx? (· == id) with
  | some i => i + 1
  | none => 0

/-- The entries without one, in their order (R28). -/
def State.leaveClaim (s : State) (t : Sink) (id : Nat) : State := s.setClaim t ((s.claim t).filter (· != id))

/-! ### Holding and freeing a sink (R3) -/

/-- The sink's holder field names the route and the source's fan-out count rises. -/
def State.takeSink (s : State) (id : Nat) (e : Source) (t : Sink) : State :=
  let s1 := s.setSinkEntry t { s.sinkEntry t with holder := some id }
  s1.setSourceEntry e { s1.sourceEntry e with fanOut := (s1.sourceEntry e).fanOut + 1 }

/-- The sink's holder field is set to none and one is taken from the source's fan-out count. The grant that follows (R34) is a
command of its own, and nothing puts it into the queue (DESIGN CHOICE, log entry 28). -/
def State.freeSink (s : State) (e : Source) (t : Sink) : State :=
  let s1 := s.setSinkEntry t { s.sinkEntry t with holder := none }
  s1.setSourceEntry e { s1.sourceEntry e with fanOut := (s1.sourceEntry e).fanOut - 1 }

/-! ### Release (R21, R22) -/

/-- One is taken from the owned-route count of an owner that is a port. -/
def State.disown (s : State) (owner : Option Port) : State :=
  match owner with
  | some p => s.setSession p { s.session p with owned := (s.session p).owned - 1 }
  | none => s

/-- A store the route used stays bound only if some route of the table still uses an endpoint of it (R21 step 3, R107). -/
def State.unbindStore (s : State) (r : Route) (n : Idx) : State :=
  if usesStore r n && !(s.routes.any fun x => usesStore x n) then
    s.setStore n { s.store n with binding := none }
  else s

/-- Steps 2 to 4 of R21: the owner's count, the record and its id, the bindings of its stores. -/
def State.eraseRoute (s : State) (r : Route) : State :=
  let s := (s.disown r.owner).dropRoute r.id
  (((s.unbindStore r .i0).unbindStore r .i1).unbindStore r .i2).unbindStore r .i3

/-- Steps 1 to 5 of R21, for a holder. `tell` is no when the owner's own response reports the release. -/
def releaseHolder (cause : ReleaseCause) (tell : Bool) (r : Route) (s : State) : Eff :=
  { st := (s.freeSink r.source r.sink).eraseRoute r,
    evs := if tell then tellOwner r (.routeReleased r.id r.sink cause) else [] }

/-- R22: a waiting route leaves its claim queue, its timer with it, and steps 2 to 5 of R21 are taken. -/
def releaseWaiter (cause : ReleaseCause) (tell : Bool) (r : Route) (s : State) : Eff :=
  { st := (s.leaveClaim r.sink r.id).eraseRoute r,
    evs := if tell then tellOwner r (.routeReleased r.id r.sink cause) else [] }

/-! ### The outcome of a ramp-down or of a preemption (R17, R40) -/

/-- R40: the holder leaves its sink and waits again by its priority, without wait time left. -/
def requeue (r : Route) (s : State) : Eff :=
  let s1 := s.freeSink r.source r.sink
  let q := insertClaim s1.priorityOf r.priority r.id (s1.claim r.sink)
  { st := (s1.setClaim r.sink q).setRoute { r with state := .waiting none, current := 0, rampCount := 0 },
    evs := tellOwner r (.routeRequeued r.id r.sink (placeIn r.id q)) }

/-- R17 and R40: DISCONNECTED releases; PREEMPTED requeues a route with REQUEUE, an owner and room in its claim queue,
and releases any other. -/
def carryOut (o : Pending) (r : Route) (s : State) : Eff :=
  match o with
  | .disconnected => releaseHolder .disconnected true r s
  | .preempted =>
    if r.flags.requeue && r.owner.isSome && decide ((s.claim r.sink).length < maxWaiters) then requeue r s
    else releaseHolder .preempted true r s

/-! ### Suspension and its end (R13 to R15) -/

/-- One cause joins the causes of a SUSPENDED route. -/
def Causes.join : Causes → SuspendCause → Causes
  | .domainDown, .domainDown => .domainDown
  | .sourceDown, .sourceDown => .sourceDown
  | _, _ => .both

/-- One cause leaves; none when the set is left empty. -/
def Causes.remove : Causes → SuspendCause → Option Causes
  | .both, .domainDown => some .sourceDown
  | .both, .sourceDown => some .domainDown
  | .domainDown, .domainDown => none
  | .sourceDown, .sourceDown => none
  | c, _ => some c

/-- A route treated as Table 1.3 (R13) and R14 say when a cause comes: `first` are the causes an ARMED, RAMP_UP or LIVE
route is suspended with. -/
def suspend (cause : SuspendCause) (first : Causes) (r : Route) (s : State) : Eff :=
  let told := tellOwner r (.routeSuspended r.id r.sink cause)
  match r.state with
  | .waiting _ => { st := s, evs := [] }
  | .armed | .rampUp | .live =>
    { st := s.setRoute { r with state := .suspended first, current := 0, rampCount := 0 }, evs := told }
  | .suspended cs =>
    if r.state.hasCause cause then { st := s, evs := [] }
    else { st := s.setRoute { r with state := .suspended (cs.join cause) }, evs := told }
  | .rampDown o => carryOut o { r with current := 0 } s

/-- R13 at one route: SOURCE_DOWN comes with DOMAIN_DOWN when the source is down. -/
def domainDownAt (r : Route) (s : State) : Eff :=
  suspend .domainDown (if s.sourceUp r.source then .domainDown else .both) r s

/-- R14 at one route. -/
def sourceDownAt (r : Route) (s : State) : Eff := suspend .sourceDown .sourceDown r s

/-- R15 at one route: a cause leaves a SUSPENDED route, and with the last one the route goes to ARMED. -/
def resume (cause : SuspendCause) (r : Route) (s : State) : Eff :=
  match r.state with
  | .suspended cs =>
    match cs.remove cause with
    | some cs' => { st := s.setRoute { r with state := .suspended cs' }, evs := [] }
    | none =>
      { st := s.setRoute { r with state := .armed, current := 0, rampCount := 0 },
        evs := tellOwner r (.routeGranted r.id r.sink) }
  | _ => { st := s, evs := [] }

/-- The route is fed from input lane `i`. -/
def fedFrom (i : Idx) (r : Route) : Bool := usesLane r (.input i)

/-! ### Reports between blocks (R69, R95) -/

/-- The oldest of the reports that concern one thing, when it is the report asked for, leaves the list; none when it is
another or there is none (log entry 6). -/
def takeReport [DecidableEq α] (same : α → Bool) (r : α) : List α → Option (List α)
  | [] => none
  | x :: xs => if same x then (if x = r then some xs else none) else (takeReport same r xs).map (x :: ·)

def RouteReport.aboutDomain (d : Domain) : RouteReport → Bool
  | .domainStop e | .domainStart e => e == d
  | .sourcesDown _ | .sourcesUp _ => false

def RouteReport.aboutLane (i : Idx) : RouteReport → Bool
  | .sourcesDown j | .sourcesUp j => j == i
  | .domainStop _ | .domainStart _ => false

def LaneReport.aboutDomain (d : Domain) : LaneReport → Bool
  | .domainStop e | .domainStart e => e == d

namespace State

/-- A stop of a domain is reported to the Route Table and to the Lane Units (R69). -/
def reportStop (s : State) (d : Domain) : State :=
  { s with routeReports := s.routeReports ++ [.domainStop d], laneReports := s.laneReports ++ [.domainStop d] }

/-- A start of a domain is reported to the Route Table and to the Lane Units (R69). -/
def reportStart (s : State) (d : Domain) : State :=
  { s with routeReports := s.routeReports ++ [.domainStart d], laneReports := s.laneReports ++ [.domainStart d] }

/-- An input lane that leaves or enters RUNNING reports its sources down or up (R95). -/
def reportSources (s : State) (i : Idx) (before after : LaneState) : State :=
  if before = .running ∧ after ≠ .running then { s with routeReports := s.routeReports ++ [.sourcesDown i] }
  else if before ≠ .running ∧ after = .running then { s with routeReports := s.routeReports ++ [.sourcesUp i] }
  else s

end State

/-! ### Time (R43, R44, R76, R77) -/

/-- One period of XREF: the wait timers (R43) and the holdover time left (R76) count down by one, to 0 at the least. -/
def State.countTimers (s : State) : State :=
  { s with
    routes := s.routes.map fun r =>
      match r.state with
      | .waiting (some n) => { r with state := .waiting (some (n - 1)) }
      | _ => r
    fx := match s.fx.state with
      | .holdover m n => { s.fx with state := .holdover m (n - 1) }
      | _ => s.fx }

/-- The wait timer of the route has reached 0 while it is WAITING (R44). -/
def Route.timedOut (r : Route) : Bool :=
  match r.state with
  | .waiting (some n) => n == 0
  | .waiting none | .armed | .rampUp | .live | .rampDown _ | .suspended _ => false

/-- The holdover time left has reached 0 with FX still in HOLDOVER (R77). -/
def FxState.holdoverOver : FxState → Bool
  | .holdover _ n => n == 0
  | .off | .seeking | .locking _ | .locked _ => false

/-- The happenings of the timers that stand at 0: WAIT_TIMEOUT of each such route, and HOLDOVER_EXPIRED (R44, R77). -/
def State.timersDue (s : State) : List Instr :=
  (s.routes.filter Route.timedOut).map (fun r => .waitTimeout r.id)
    ++ (if s.fx.state.holdoverOver then [.holdoverExpired] else [])

/-- One period of XREF with no command waiting: the timers count, and the happenings of those that stand at 0 are put into
the queue. While RESET is asserted no time passes (log entries 3, 24). -/
def State.tick (s : State) : State :=
  if s.resetHeld then s else { s.countTimers with pending := s.pending ++ s.countTimers.timersDue }

end Sys2Proof.Machine
end

