-- ==== Sys2Proof/Machine/Ownership.lean ====
section
/-! DEFINITION. The close of a session (R126 to R128): shared by CLOSE_SESSION and by a port reset. -/

namespace Sys2Proof.Machine

/-- A route given the owner NONE: its REQUEUE flag is cleared and all else kept; its former owner stays known (R128). -/
def Route.orphaned (r : Route) : Route :=
  { r with owner := none, former := r.owner, flags := { r.flags with requeue := false } }

/-- One holder of a closing port, as Table 7.2 treats it (R127). A WAITING route is removed before. -/
def closeHolder (r : Route) (s : State) : Eff :=
  if r.flags.persist then { st := s.setRoute r.orphaned, evs := [] }
  else
    match r.state with
    | .armed | .suspended _ => releaseHolder .disconnected true r s
    | .rampUp | .live =>
      { st := s.setRoute { r.orphaned with state := .rampDown .disconnected, rampCount := 0 }, evs := [] }
    | .rampDown _ => { st := s.setRoute { r.orphaned with state := .rampDown .disconnected }, evs := [] }
    | .waiting _ => { st := s, evs := [] }

/-- The pending outcome of a route in RAMP_DOWN (R128). -/
def RouteState.pending? : RouteState → Option Pending
  | .rampDown o => some o
  | .waiting _ | .armed | .rampUp | .live | .suspended _ => none

/-- ROUTE_ORPHANED of an orphan for every open port other than the closing one, with its former owner (R128). -/
def orphanEvent (closing : Port) (r : Route) : Option Emit :=
  r.former.map fun p =>
    { aud := .everyOpenBut closing, ev := .routeOrphaned r.id r.sink r.domain r.state.pending? p r.epoch }

/-- What a close leaves and the counts CLOSE_SESSION answers (R125). -/
structure Closed where
  eff      : Eff
  released : Nat
  winding  : Nat
  orphaned : Nat

/-- Steps 1 and 2 of R126: the session becomes CLOSED and the event queue is emptied. -/
def State.shutSession (s : State) (p : Port) : State :=
  let s := s.setSession p { s.session p with isOpen := false }
  s.setQueue p { s.queue p with entries := [] }

/-- The close of a port's session, its six steps in order (R126). -/
def State.close (s : State) (p : Port) : Closed :=
  let waiters := s.idsWhere fun r => r.owner == some p && !r.state.holds
  let holders := s.idsWhere fun r => r.owner == some p && r.state.holds
  let e3 := forRoutesInOrder (releaseWaiter .disconnected true) waiters (s.shutSession p)
  let e4 := forRoutesInOrder closeHolder holders e3.st
  let s5 := e4.st.setSession p { e4.st.session p with owned := 0 }
  let orphans := holders.filterMap s5.route?
  { eff := { st := s5, evs := e3.evs ++ e4.evs ++ orphans.filterMap (orphanEvent p) },
    released := waiters.length + (holders.length - orphans.length),
    winding := orphans.countP fun r => !r.flags.persist,
    orphaned := orphans.countP fun r => r.flags.persist }

end Sys2Proof.Machine
end

