-- ==== Sys2Proof/Decode.lean ====
section
/-! DEFINITION. From the bits and bytes of a transaction to a command (chapters 9 and 10). The rows of the opcode table give no
bits, so `decodeTableWord` reads none; what the part does read is a transaction, and `decodeTransaction` says which
command each one is. -/

namespace Sys2Proof

/-! ### CRC-8 (R146, R163) -/

/-- One left shift of the CRC register: a 1 shifted out is folded back as 0x07 (R163). -/
def crcShift (c : Byte) : Byte := if c.msb then (c <<< 1) ^^^ 0x07#8 else c <<< 1

/-- A byte combined with the register by exclusive-or, then eight shifts (R163). -/
def crcByte (c b : Byte) : Byte :=
  crcShift (crcShift (crcShift (crcShift (crcShift (crcShift (crcShift (crcShift (c ^^^ b))))))))

/-- The CRC-8 of a run of bytes: the register starts at 0, with no reflection and no final inversion (R163). -/
def crc8 (bs : List Byte) : Byte := bs.foldl crcByte 0#8

/-! ### The command frame (R146, R156) -/

/-- The frame check of R146: at least four bytes, a length byte of at most 250 that agrees with the number of bytes, and
a good CRC. -/
def frameGood : List Byte → Bool
  | code :: seq :: len :: rest =>
    decide (len.toNat ≤ 250) && decide (rest.length = len.toNat + 1)
      && decide (crc8 (code :: seq :: len :: rest.dropLast) = rest.getLastD 0#8)
  | _ => false

/-- The frame around a command (Table 10.1). -/
def encodeFrame (code seq : Byte) (params : List Byte) : List Byte :=
  let body := code :: seq :: .ofNat 8 params.length :: params
  body ++ [crc8 body]

/-- The host command a code byte names (Table 10.2). -/
def commandOf (code : Nat) (p : Port) (seq : Byte) (params : List Byte) : Option Instr :=
  match code with
  | 0x01 => some (.openSession p seq params)
  | 0x02 => some (.closeSession p seq params)
  | 0x03 => some (.describeEndpoint p seq params)
  | 0x04 => some (.setTag p seq params)
  | 0x05 => some (.findTag p seq params)
  | 0x06 => some (.setLane p seq params)
  | 0x07 => some (.setRate p seq params)
  | 0x08 => some (.queryDomain p seq params)
  | 0x09 => some (.connect p seq params)
  | 0x0A => some (.disconnect p seq params)
  | 0x0B => some (.setGain p seq params)
  | 0x0C => some (.adopt p seq params)
  | 0x0D => some (.queryRoute p seq params)
  | 0x0E => some (.listRoutes p seq params)
  | 0x0F => some (.querySink p seq params)
  | 0x10 => some (.setTrim p seq params)
  | 0x11 => some (.resetMeter p seq params)
  | 0x12 => some (.configureStore p seq params)
  | 0x13 => some (.storeWrite p seq params)
  | 0x14 => some (.storeRead p seq params)
  | 0x15 => some (.flushStore p seq params)
  | 0x16 => some (.queryStore p seq params)
  | 0x17 => some (.readEvents p seq params)
  | 0x18 => some (.ackEvents p seq params)
  | _ => none

/-- Whether a code byte names one of the 24 commands of Table 10.2. -/
def knownCode (code : Byte) : Bool := decide (1 ≤ code.toNat) && decide (code.toNat ≤ 24)

/-! ### The bits of a transaction (R145) -/

/-- A byte from its eight bits, the most significant first. -/
def byteOfBits (b7 b6 b5 b4 b3 b2 b1 b0 : Bool) : Byte :=
  .ofNat 8 ([b7, b6, b5, b4, b3, b2, b1, b0].foldl (fun n b => 2 * n + b.toNat) 0)

/-- The bits taken from SDIn on rising edges of SCKn, grouped into whole bytes, most significant bit first; the bits after the
last whole byte, too few to make a byte, are discarded. -/
def bytesOfBits : List Bool → List Byte
  | b7 :: b6 :: b5 :: b4 :: b3 :: b2 :: b1 :: b0 :: rest => byteOfBits b7 b6 b5 b4 b3 b2 b1 b0 :: bytesOfBits rest
  | _ => []

/-- The bits of a run of bytes on the wire, each byte most significant bit first. -/
def bitsOfBytes (bs : List Byte) : List Bool :=
  bs.flatMap fun b => [b.getLsbD 7, b.getLsbD 6, b.getLsbD 5, b.getLsbD 4, b.getLsbD 3, b.getLsbD 2, b.getLsbD 1, b.getLsbD 0]

/-- The command a whole transaction on port `p` is, from the whole bytes received in it. A transaction that ends before
one whole byte has no kind; a first byte of 0x00 makes it a FETCH (R145); any other makes it a command frame, judged by
the frame check and then by its code (R146, R150). Whether the frame is taken or discarded is for the holder to say
(R152). -/
def decodeTransaction (p : Port) : List Byte → Option Instr
  | [] => none
  | first :: rest =>
    if first = 0#8 then some (.fetch p rest.length)
    else if frameGood (first :: rest) then
      match rest with
      | seq :: _ :: tail =>
        match commandOf first.toNat p seq tail.dropLast with
        | some c => some c
        | none => some (.unknownCommand p first seq tail.dropLast)
      | _ => none
    else some (.frameError p (first :: rest))

/-- The command a transaction is, from the bits clocked while CSn was low. -/
def decodeWire (p : Port) (bits : List Bool) : Option Instr := decodeTransaction p (bytesOfBits bits)

/-- The bytes a master sends for a command that is a transaction; the bytes it sends after the first of a FETCH are
ignored (R148), and stand here as zeros. No other command is a transaction. -/
def encodeTransaction : Instr → Option (List Byte)
  | .openSession _ seq ps => some (encodeFrame 0x01#8 seq ps)
  | .closeSession _ seq ps => some (encodeFrame 0x02#8 seq ps)
  | .describeEndpoint _ seq ps => some (encodeFrame 0x03#8 seq ps)
  | .setTag _ seq ps => some (encodeFrame 0x04#8 seq ps)
  | .findTag _ seq ps => some (encodeFrame 0x05#8 seq ps)
  | .setLane _ seq ps => some (encodeFrame 0x06#8 seq ps)
  | .setRate _ seq ps => some (encodeFrame 0x07#8 seq ps)
  | .queryDomain _ seq ps => some (encodeFrame 0x08#8 seq ps)
  | .connect _ seq ps => some (encodeFrame 0x09#8 seq ps)
  | .disconnect _ seq ps => some (encodeFrame 0x0A#8 seq ps)
  | .setGain _ seq ps => some (encodeFrame 0x0B#8 seq ps)
  | .adopt _ seq ps => some (encodeFrame 0x0C#8 seq ps)
  | .queryRoute _ seq ps => some (encodeFrame 0x0D#8 seq ps)
  | .listRoutes _ seq ps => some (encodeFrame 0x0E#8 seq ps)
  | .querySink _ seq ps => some (encodeFrame 0x0F#8 seq ps)
  | .setTrim _ seq ps => some (encodeFrame 0x10#8 seq ps)
  | .resetMeter _ seq ps => some (encodeFrame 0x11#8 seq ps)
  | .configureStore _ seq ps => some (encodeFrame 0x12#8 seq ps)
  | .storeWrite _ seq ps => some (encodeFrame 0x13#8 seq ps)
  | .storeRead _ seq ps => some (encodeFrame 0x14#8 seq ps)
  | .flushStore _ seq ps => some (encodeFrame 0x15#8 seq ps)
  | .queryStore _ seq ps => some (encodeFrame 0x16#8 seq ps)
  | .readEvents _ seq ps => some (encodeFrame 0x17#8 seq ps)
  | .ackEvents _ seq ps => some (encodeFrame 0x18#8 seq ps)
  | .fetch _ clocked => some (0#8 :: List.replicate clocked 0#8)
  | .frameError _ bytes => some bytes
  | .unknownCommand _ code seq ps => some (encodeFrame code seq ps)
  | .frameDiscarded .. | .portReset .. | .portResetRelease .. | .deviceReset | .lockComplete .. | .clockFound ..
  | .clockLost | .holdoverExpired | .frameBoundary .. | .routeTableDomainStop .. | .routeTableDomainStart ..
  | .laneDomainStop .. | .laneDomainStart .. | .sourcesDown .. | .sourcesUp .. | .grant .. | .waitTimeout ..
  | .commandCompletes .. | .resetRelease => none

/-- The command a word of the opcode table spells. No row of the table gives bits, so none (98_reader.md: no row has
fixed bits or fields). -/
def decodeTableWord (_nbits _w : Nat) : Option Instr := none

end Sys2Proof
end

