-- ==== Sys2Proof/Machine/Flags.lean ====
section
/-! DEFINITION. Flag bytes of parameters and reports (R157), the attention line (R143) and the sides of a store's marks
(R112). -/

namespace Sys2Proof.Machine

/-- Bit `i` of a flag byte. -/
def bitOf (b : Byte) (i : Nat) : Bool := b.getLsbD i

/-- A flag byte from its bits, bit 0 first. -/
def flagsByte (bits : List Bool) : Byte :=
  byteOf (bits.foldr (fun b n => (if b then 1 else 0) + 2 * n) 0)

/-- PERSIST, REQUEUE and NOTIFY: the kept flags of a CONNECT (R5). -/
def keptFlags (b : Byte) : RouteFlags := { persist := bitOf b 0, requeue := bitOf b 1, notify := bitOf b 2 }

def flagPreempt (b : Byte) : Bool := bitOf b 3

def flagNowait (b : Byte) : Bool := bitOf b 4

/-- A CONNECT flag byte with no bit beyond bit 4 and not both PREEMPT and NOWAIT (R5). -/
def connectFlagsOk (b : Byte) : Bool := decide (b.toNat < 32) && !(flagPreempt b && flagNowait b)

/-- The flags of a route in a report: bits 0 to 2 (R157). -/
def RouteFlags.byte (f : RouteFlags) : Byte := flagsByte [f.persist, f.requeue, f.notify]

/-- Bit 0 DOMAIN_DOWN, bit 1 SOURCE_DOWN; 0 when the route is not SUSPENDED (Table 10.3). -/
def RouteState.causesByte (st : RouteState) : Byte :=
  flagsByte [st.hasCause .domainDown, st.hasCause .sourceDown]

/-- Byte 14 of a store report (Table 10.10). -/
def Store.flagsByte (st : Store) : Byte :=
  Machine.flagsByte [st.underrunEp, st.overrunEp, !st.aboveLow, st.atHigh]

/-- The attention line of a port (R143): asserted while its session is OPEN with a queue that is not empty, or its
response holder is READY. -/
def State.attention (s : State) (p : Port) : Bool :=
  ((s.session p).isOpen && !(s.queue p).entries.isEmpty) ||
    match (s.port p).holder with
    | .ready _ => true
    | .empty | .executing _ | .fetched _ => false

/-- Some route holds the sink. -/
def State.sinkHeld (s : State) (t : Sink) : Bool := (s.sinkEntry t).holder.isSome

/-! ### The sides of a store's marks -/

/-- The size of a store's ring in samples (R102). -/
def Store.samples (st : Store) : Nat := st.capacity * blockSamples

/-- The number of samples held (R104). -/
def Store.fill (st : Store) : Nat := st.ring.length

/-- R112: the sides follow the fill at the end of a happening; going down to the low mark makes STORE_LOW, up to the
high mark STORE_HIGH. An unconfigured store makes no mark event. -/
def updateMarks (n : Idx) (st : Store) : Store × List Event :=
  if st.capacity = 0 then (st, [])
  else
    let above := decide (st.lowMark < st.fill)
    let high := decide (st.highMark ≤ st.fill)
    ({ st with aboveLow := above, atHigh := high },
      (if st.aboveLow && !above then [.storeLow n st.fill] else [])
        ++ (if !st.atHigh && high then [.storeHigh n st.fill] else []))

/-- An underrun episode ends in the first happening after which the fill is above 0 (R109). -/
def endUnderrun (st : Store) : Store := if 0 < st.fill then { st with underrunEp := false } else st

/-- An overrun episode ends in the first happening after which the fill is below the capacity (R111). -/
def endOverrun (st : Store) : Store := if st.fill < st.samples then { st with overrunEp := false } else st

end Sys2Proof.Machine
end

