-- ==== Sys2Proof/Machine/Reports.lean ====
section
/-! DEFINITION. The payload layouts of chapter 10: the five query reports (R160) and the event record (R162). -/

namespace Sys2Proof.Machine

/-! ### Event records (R135, R162) -/

/-- The fields of an event record; a field that is absent is none (Table 8.1). -/
structure EventFields where
  code     : Nat
  route    : Option Nat
  endpoint : Option Nat
  domain   : Option Domain
  cause    : Option Nat
  value    : Option Nat
  tag      : Option Tag
  deriving DecidableEq, Repr

/-- A port and an epoch that share the value field (R162). -/
def portEpoch (p : Port) (epoch : Byte) : Nat := 256 * Port.code p + epoch.toNat

/-- The fields each event carries (Tables 8.2 and 10.12). -/
def Event.fields : Event → EventFields
  | .routeGranted id t => ⟨0x01, some id, some (Sink.wire t), none, none, none, none⟩
  | .routeLive id t g => ⟨0x02, some id, some (Sink.wire t), none, none, some g, none⟩
  | .gainReached id t g => ⟨0x03, some id, some (Sink.wire t), none, none, some g, none⟩
  | .routeSuspended id t c => ⟨0x04, some id, some (Sink.wire t), none, some c.code, none, none⟩
  | .routeRequeued id t place => ⟨0x05, some id, some (Sink.wire t), none, none, some place, none⟩
  | .routeReleased id t c => ⟨0x06, some id, some (Sink.wire t), none, some c.code, none, none⟩
  | .routeOrphaned id t d o p e => ⟨0x07, some id, some (Sink.wire t), some d, o.map Pending.code, some (portEpoch p e), none⟩
  | .routeAdopted id t d p e => ⟨0x08, some id, some (Sink.wire t), some d, none, some (portEpoch p e), none⟩
  | .domainState d st r => ⟨0x10, none, none, some d, some st.code, some r, none⟩
  | .rateChanged d r => ⟨0x11, none, none, some d, none, some r, none⟩
  | .laneState l d st => ⟨0x12, none, some (LaneId.code l), some d, some st.code, none, none⟩
  | .laneChanged l d en => ⟨0x13, none, some (LaneId.code l), some d, none, some (if en then 1 else 0), none⟩
  | .storeUnderrun n f => ⟨0x18, none, some (Sink.wire (.storeIn n)), none, none, some f, none⟩
  | .storeOverrun n f => ⟨0x19, none, some (Sink.wire (.storeIn n)), none, none, some f, none⟩
  | .storeLow n f => ⟨0x1A, none, some (Sink.wire (.storeIn n)), none, none, some f, none⟩
  | .storeHigh n f => ⟨0x1B, none, some (Sink.wire (.storeIn n)), none, none, some f, none⟩
  | .storeConfigured n c => ⟨0x1C, none, some (Sink.wire (.storeIn n)), none, none, some c, none⟩
  | .tagChanged e t => ⟨0x20, none, some (Endpoint.wire e), none, none, none, some t⟩
  | .trimChanged l k v => ⟨0x21, none, some (Sink.wire (.output l k)), none, none, some v, none⟩
  | .lost c => ⟨0xFF, none, none, none, none, some c, none⟩

/-- One bit for each optional field that is present (Table 10.11). -/
def EventFields.presence (f : EventFields) : Byte :=
  flagsByte [f.route.isSome, f.endpoint.isSome, f.domain.isSome, f.cause.isSome, f.value.isSome, f.tag.isSome]

/-- An entry of an event queue as 14 bytes (Table 10.11). -/
def Entry.bytes (e : Entry) : List Byte :=
  let f := Event.fields e.ev
  [byteOf f.code] ++ bytes2 e.seq.toNat
    ++ [f.presence, byteOf (f.route.getD 0), byteOf (f.endpoint.getD 0),
        (match f.domain with
         | some d => byteOf (Domain.code d)
         | none => 0#8),
        byteOf (f.cause.getD 0)]
    ++ bytes2 (f.value.getD 0)
    ++ (match f.tag with
        | some t => Tag.bytes t
        | none => [0#8, 0#8, 0#8, 0#8])

/-! ### Route report (Table 10.8) -/

/-- The wait time left in milliseconds, 0 when it is absent. -/
def RouteState.waitMs : RouteState → Nat
  | .waiting (some n) => xrefToMs n
  | _ => 0

/-- Byte 14 of a route report: cause 1 or 2 in RAMP_DOWN, 0 otherwise. -/
def RouteState.outcomeCode : RouteState → Nat
  | .rampDown o => o.code
  | _ => 0

/-- The place of a WAITING route in its claim queue, 0 for any other. -/
def State.placeOf (s : State) (r : Route) : Nat :=
  match r.state with
  | .waiting _ => placeIn r.id (s.claim r.sink)
  | _ => 0

/-- R24, Table 10.8: 18 bytes. An orphan is reported with owner NONE (R132) and the owner epoch it kept (R123); R128 and R131 speak
of its former port too, for which the report has no byte (log entry 25). -/
def State.routeReport (s : State) (r : Route) : List Byte :=
  [byteOf r.id, ownerByte r.owner, r.epoch,
   byteOf (Source.wire r.source), byteOf (Sink.wire r.sink), byteOf (Domain.code r.domain), byteOf r.priority,
   r.flags.byte,
   byteOf r.target, byteOf r.current, byteOf r.rampRate, byteOf r.rampCount,
   byteOf r.state.code, r.state.causesByte, byteOf r.state.outcomeCode, byteOf (s.placeOf r)]
    ++ bytes2 r.state.waitMs

/-! ### Sink report (Table 10.9) -/

/-- Bytes 1 to 4: the holder, all 0 without one. -/
def State.holderBytes (s : State) (t : Sink) : List Byte :=
  match (s.sinkEntry t).holder.bind s.route? with
  | some r => [byteOf r.id, ownerByte r.owner, byteOf r.priority, byteOf r.state.code]
  | none => [0#8, 0#8, 0#8, 0#8]

/-- One waiter slot of five bytes. -/
def waiterBytes (r : Route) : List Byte :=
  [byteOf r.id, ownerByte r.owner, byteOf r.priority] ++ bytes2 r.state.waitMs

/-- The waiters of a sink, head first. -/
def State.waiters (s : State) (t : Sink) : List Route := (s.claim t).filterMap s.route?

/-- Bytes 26 to 31: trim, peak meter and clip count; 0xFF and zeros for a store input. -/
def State.meterBytes (s : State) : Sink → List Byte
  | .output l k =>
    let c := s.channel l k
    [byteOf c.trim] ++ bytes3 c.peak ++ bytes2 c.clips
  | .storeIn _ => [0xFF#8, 0#8, 0#8, 0#8, 0#8, 0#8]

/-- R47, Table 10.9: 32 bytes. -/
def State.sinkReport (s : State) (t : Sink) : List Byte :=
  let ws := (s.waiters t).take maxWaiters
  [byteOf (Sink.wire t)] ++ s.holderBytes t ++ [byteOf ws.length]
    ++ ws.flatMap waiterBytes ++ List.replicate (5 * (maxWaiters - ws.length)) 0#8
    ++ s.meterBytes t

/-! ### Store report (Table 10.10) -/

/-- R117, Table 10.10: 36 bytes. -/
def State.storeReport (s : State) (n : Idx) : List Byte :=
  let st := s.store n
  [byteOf n.toNat, byteOf st.capacity, flagByte st.keepNew]
    ++ bytes2 st.lowMark ++ bytes2 st.highMark
    ++ bytes2 st.fill ++ bytes2 st.readPos ++ bytes2 st.writePos
    ++ [bindingByte st.binding, Store.flagsByte st]
    ++ bytes4 st.accepted.toNat ++ bytes4 st.delivered.toNat ++ bytes4 st.discarded.toNat ++ bytes4 st.rejected.toNat
    ++ bytes2 st.underruns
    ++ [byteOf ((s.sinkEntry (.storeIn n)).holder.getD 0), byteOf (s.feedCount (.storeOut n)), byteOf s.freeBlocks]

/-! ### Domain report (R160) -/

/-- The state of a domain as reports and events carry it. -/
def State.domainState (s : State) : Domain → DomainState
  | .fa => match s.fa.state with
    | .off => .off | .locking => .locking | .locked => .locked
  | .fb => match s.fb.state with
    | .off => .off | .locking => .locking | .locked => .locked
  | .fx => match s.fx.state with
    | .off => .off | .seeking => .seeking | .locking _ => .locking | .locked _ => .locked | .holdover _ _ => .holdover

/-- The rate code of a domain: for FX 0 or 6 (Table 4.1). -/
def State.rateCode (s : State) : Domain → Nat
  | .fa => rateCodeOf s.fa.rateCode
  | .fb => rateCodeOf s.fb.rateCode
  | .fx => if s.fx.external then 6 else 0

/-- The measured rate of FX, where it is present (Table 4.1). -/
def FxState.measured? : FxState → Option Rate
  | .off | .seeking => none
  | .locking m | .locked m | .holdover m _ => some m

/-- The rate code DOMAIN_STATE carries: for FX the measured rate when present, and otherwise the rate code (R82). -/
def State.eventRateCode (s : State) : Domain → Nat
  | .fa => s.rateCode .fa
  | .fb => s.rateCode .fb
  | .fx => match s.fx.state.measured? with
    | some m => Rate.code m
    | none => s.rateCode .fx

def State.frameCount (s : State) : Domain → BitVec 32
  | .fa => s.fa.frameCount
  | .fb => s.fb.frameCount
  | .fx => s.fx.frameCount

/-- The measured rate code, 0 when absent. -/
def State.measuredCode (s : State) : Domain → Nat
  | .fx => rateCodeOf s.fx.state.measured?
  | .fa | .fb => 0

/-- The holdover time left in milliseconds, 0 when absent. -/
def State.holdoverMs (s : State) : Domain → Nat
  | .fx => match s.fx.state with
    | .holdover _ n => xrefToMs n
    | _ => 0
  | .fa | .fb => 0

/-- R84, R160: 13 bytes. -/
def State.domainReport (s : State) (d : Domain) : List Byte :=
  [byteOf (Domain.code d), byteOf (s.rateCode d), byteOf (s.domainState d).code, flagByte (s.running d),
   byteOf (s.measuredCode d)]
    ++ bytes2 (s.holdoverMs d) ++ bytes4 (s.frameCount d).toNat
    ++ [byteOf (s.holderCount d), byteOf (s.waiterCount d)]

/-! ### Endpoint descriptor (R88, R160) -/

/-- The last four bytes of the descriptor of a lane channel: lane code, enabled, binding, state. -/
def State.laneBytes (s : State) (l : LaneId) : List Byte :=
  let x := s.lane l
  [byteOf (LaneId.code l), flagByte x.enabled, byteOf (Domain.code x.binding), byteOf x.state.code]

/-- The last four bytes of the descriptor of a store endpoint: store number, capacity, binding, 0xFF. -/
def State.storeBytes (s : State) (n : Idx) : List Byte :=
  let x := s.store n
  [byteOf n.toNat, byteOf x.capacity, bindingByte x.binding, 0xFF#8]

/-- 12 bytes. -/
def State.endpointReport (s : State) (e : Endpoint) : List Byte :=
  [byteOf (Endpoint.wire e), byteOf (Endpoint.kind e)]
    ++ (match e with
        | .source x =>
          let d := s.sourceEntry x
          Tag.bytes d.tag ++ [byteOf d.fanOut, flagByte (s.sourceUp x)]
        | .sink t =>
          let d := s.sinkEntry t
          Tag.bytes d.tag ++ [byteOf (d.holder.getD 0), byteOf (s.claim t).length])
    ++ (match e with
        | .source (.input l _) => s.laneBytes (.input l)
        | .sink (.output l _) => s.laneBytes (.output l)
        | .source (.storeOut n) => s.storeBytes n
        | .sink (.storeIn n) => s.storeBytes n)

/-! ### Lists -/

/-- Pairs of route id and route state, in ascending order of id (R25). -/
def routePairs (rs : List Route) : List Byte := rs.flatMap fun r => [byteOf r.id, byteOf r.state.code]

end Sys2Proof.Machine
end

