-- ==== Sys2Proof/WellFormed.lean ====
section
/-! DEFINITION. When a command can be what it says it is: the bounds its operands have on the wire. -/

namespace Sys2Proof

/-- At most 250 parameter bytes (R146). -/
def paramsFit (params : List Byte) : Bool := decide (params.length ≤ 250)

/-- The bytes of a command frame begin with a byte other than 0x00 (R145). -/
def isCommandFrame : List Byte → Bool
  | [] => false
  | b :: _ => decide (b ≠ 0#8)

/-- Every sync arrived within the interval. -/
def LaneRx.wf (rx : LaneRx) : Bool := rx.syncs.all fun n => decide (n < rx.bits)

/-- The operands are ones the command can have. -/
def Instr.wf : Instr → Bool
  | .openSession _ _ ps | .closeSession _ _ ps | .describeEndpoint _ _ ps | .setTag _ _ ps | .findTag _ _ ps
  | .setLane _ _ ps | .setRate _ _ ps | .queryDomain _ _ ps | .connect _ _ ps | .disconnect _ _ ps
  | .setGain _ _ ps | .adopt _ _ ps | .queryRoute _ _ ps | .listRoutes _ _ ps | .querySink _ _ ps
  | .setTrim _ _ ps | .resetMeter _ _ ps | .configureStore _ _ ps | .storeWrite _ _ ps | .storeRead _ _ ps
  | .flushStore _ _ ps | .queryStore _ _ ps | .readEvents _ _ ps | .ackEvents _ _ ps => paramsFit ps
  | .frameError _ bytes => isCommandFrame bytes && !frameGood bytes
  | .unknownCommand _ code _ ps => decide (code ≠ 0#8) && !knownCode code && paramsFit ps
  | .frameDiscarded _ bytes => isCommandFrame bytes
  | .frameBoundary _ rx _ => rx.q0.wf && rx.q1.wf && rx.q2.wf && rx.q3.wf
  | .waitTimeout id => decide (1 ≤ id) && decide (id ≤ 48)
  | .fetch .. | .portReset .. | .portResetRelease .. | .deviceReset | .lockComplete .. | .clockFound ..
  | .clockLost | .holdoverExpired | .routeTableDomainStop .. | .routeTableDomainStart .. | .laneDomainStop ..
  | .laneDomainStart .. | .sourcesDown .. | .sourcesUp .. | .grant .. | .commandCompletes .. | .resetRelease => true

end Sys2Proof
end

