-- ==== Sys2Proof/Machine/Link.lean ====
section
/-! DEFINITION. The host port link (chapter 9): the taking of a command frame with the checks every command shares, the
response holder, FETCH, the frames that are not commands, completion, and the reset inputs. -/

namespace Sys2Proof.Machine

abbrev Outcome := Host.Outcome State Fault Refusal

/-- What a command answers: the state it leaves, the events it makes, its result and its payload. -/
structure Reply where
  st      : State
  evs     : List Emit
  result  : Result
  payload : List Byte
  deriving DecidableEq, Repr

/-- A refused command changes nothing, makes no event and carries no payload (R148, R161). -/
def refuse (r : Result) (s : State) : Reply := { st := s, evs := [], result := r, payload := [] }

/-- An accepted command. -/
def accept (s : State) (evs : List Emit) (payload : List Byte) : Reply :=
  { st := s, evs := evs, result := .ok, payload := payload }

namespace State

/-- The port takes transactions: RESET and its PRSTn are not asserted (R153, R154). DESIGN CHOICE (log entry 16): a command that
names a whole transaction is taken, from the queue, also while a transaction of the same port is in progress on the wires or CSn is
low, and leaves that transaction as it is. R145 has one transaction at a time, and no part meets the two. -/
def takes (s : State) (p : Port) : Bool := !s.resetHeld && (s.port p).link != .held

def setHolder (s : State) (p : Port) (h : Holder) : State := s.setPort p { s.port p with holder := h }

/-- In a command frame the part sends 0xFF for every byte (R145). -/
def driveOnes (s : State) (p : Port) (n : Nat) : State :=
  s.setPort p { s.port p with sent := List.replicate n 0xFF#8 }

/-- The effects of PRSTn in order: the session closes when it is OPEN, the holder is emptied; the attention line follows
(R130). -/
def portResetEffects (s : State) (p : Port) : State :=
  let s1 := if (s.session p).isOpen then let e := (s.close p).eff; e.st.post e.evs else s
  s1.setPort p { s1.port p with holder := .empty, resetWaiting := false, sent := [] }

/-- The close that waits for an executing command is taken before any frame of the new link (R153; log entry 13). -/
def settle (s : State) (p : Port) : State := if (s.port p).resetWaiting then s.portResetEffects p else s

/-- The holder keeps the response an executing command will give (R147, R151; log entry 1). -/
def answer (s : State) (p : Port) (r : Response) (frameBytes : Nat) : State :=
  (s.setHolder p (.executing r)).driveOnes p frameBytes

end State

/-- A command frame whose transaction ends (R150 to R152). It is not seen while the port takes no transaction; it is
discarded while the holder is EXECUTING; else it is taken, judged by the length and the session, and by the command's
own checks at its block, and all its changes and events are made. -/
def takeCommand (p : Port) (seq : Byte) (params : List Byte) (lengthOk needsSession : Bool) (own : State → Reply)
    (s : State) : State :=
  if s.takes p then
    let s := s.settle p
    match (s.port p).holder with
    | .executing _ => s.driveOnes p (4 + params.length)
    | .empty | .ready _ | .fetched _ =>
      let r :=
        if !lengthOk then refuse .badLength s
        else if needsSession && !(s.session p).isOpen then refuse .noSession s
        else own s
      (r.st.post r.evs).answer p { seq := seq, result := r.result, payload := r.payload } (4 + params.length)
  else s

/-- A command of one accepted length (Table 10.2) that needs a session (R150). -/
def hostCommand (p : Port) (seq : Byte) (params : List Byte) (length : Nat) (own : State → Reply) (s : State) : Outcome :=
  .next (takeCommand p seq params (params.length == length) true own s)

/-! ### The kind of a transaction (R145) -/

/-- The link state once the first whole byte of a transaction has been taken: 0x00 makes it a FETCH, any other a command
frame (R145). -/
def linkOfFirst (first : Byte) : Link := if first = 0#8 then .fetch else .command

/-! ### Response records (R158, Table 10.5) -/

def markNone : Byte := 0xA0#8
def markBusy : Byte := 0xA1#8
def markReady : Byte := 0xA5#8
def markRepeat : Byte := 0xA6#8

/-- The record with its marker and CRC. -/
def Response.record (marker : Byte) (r : Response) : List Byte :=
  let body := [marker, r.seq, byteOf r.result.code, byteOf r.payload.length] ++ r.payload
  body ++ [crc8 body]

/-- What a FETCH is answered with, by the holder (R148). -/
def Holder.fetchAnswer : Holder → List Byte
  | .empty => [markNone]
  | .executing _ => [markBusy]
  | .ready r => r.record markReady
  | .fetched r => r.record markRepeat

/-- The holder after the FETCH: READY becomes FETCHED, any other stays (R148). -/
def Holder.afterFetch : Holder → Holder
  | .ready r => .fetched r
  | .empty => .empty
  | .executing r => .executing r
  | .fetched r => .fetched r

/-- The end of a FETCH in which `clocked` bytes were clocked after the first: `h` is the holder as it stood at that first byte. It
was answered with one byte for each byte clocked, 0xFF after the end of the answer, and only a holder that was READY then becomes
FETCHED (R148). -/
def State.endFetch (s : State) (p : Port) (h : Holder) (clocked : Nat) : State :=
  let u := s.port p
  s.setPort p
    { u with
      holder := match h with
        | .ready _ => u.holder.afterFetch
        | .empty | .executing _ | .fetched _ => u.holder
      sent := (h.fetchAnswer ++ List.replicate clocked 0xFF#8).take clocked }

/-- FETCH (R148), the whole transaction in one step, so that nothing comes between its first byte and its end. Where the master
moves the wires, other steps may come between them (`State.wire`). -/
def execFetch (p : Port) (clocked : Nat) (s : State) : Outcome :=
  .next (if s.takes p then s.endFetch p (s.port p).holder clocked else s)

/-- FRAME_ERROR (R146, R147): a frame that fails the frame check passes through EXECUTING and completes at once; its
sequence byte is the second byte received, or 0. A frame that is good, or that is no command frame, is not this happening
(log entry 5). -/
def execFrameError (p : Port) (bytes : List Byte) (s : State) : Outcome :=
  .next <|
    if s.takes p && isCommandFrame bytes && !frameGood bytes then
      let s := s.settle p
      match (s.port p).holder with
      | .executing _ => s.driveOnes p bytes.length
      | .empty | .ready _ | .fetched _ =>
        (s.setHolder p (.ready { seq := bytes.getD 1 0#8, result := .frameError, payload := [] })).driveOnes p bytes.length
    else s

/-- UNKNOWN_COMMAND (R150 check 2): a good frame whose code byte names no command; the check stands before those of the
length and the session. A code that names a command, or 0x00, is not this happening (log entry 5). -/
def execUnknownCommand (p : Port) (code seq : Byte) (params : List Byte) (s : State) : Outcome :=
  .next <|
    if decide (code ≠ 0#8) && !knownCode code then
      takeCommand p seq params true false (refuse .unknownCommand) s
    else s

/-- FRAME_DISCARDED (R152): a frame whose transaction ends while the holder is EXECUTING changes nothing but the wires.
With any other holder, or while the close of R153 waits, the frame would be taken, so this happening cannot be (log
entry 5). -/
def execFrameDiscarded (p : Port) (bytes : List Byte) (s : State) : Outcome :=
  .next <|
    if s.takes p && isCommandFrame bytes && !(s.port p).resetWaiting then
      match (s.port p).holder with
      | .executing _ => s.driveOnes p bytes.length
      | .empty | .ready _ | .fetched _ => s
    else s

/-- COMMAND_COMPLETES (R151): the holder moves from EXECUTING to READY with the response; when PRSTn was asserted
meanwhile the response is discarded and the effects of R130 are taken (R131, R153). -/
def execCommandCompletes (p : Port) (s : State) : Outcome :=
  .next <|
    match (s.port p).holder with
    | .executing r => if (s.port p).resetWaiting then s.portResetEffects p else s.setHolder p (.ready r)
    | .empty | .ready _ | .fetched _ => s

/-- PORT_RESET (R130, R153): the link is HELD and a transaction in progress ends; while a command executes the
effects wait for its completion. -/
def execPortReset (p : Port) (s : State) : Outcome :=
  .next <|
    let s1 := s.setPort p { s.port p with link := .held, transfer := none, sent := [], stray := (s.port p).stray + 1 }
    match (s.port p).holder with
    | .executing _ => s1.setPort p { s1.port p with resetWaiting := true }
    | .empty | .ready _ | .fetched _ => s1.portResetEffects p

/-- PORT_RESET_RELEASE (R153): the link returns to IDLE; of a transaction already in progress on the wires no bit is taken
(`transfer` is none until the next falling edge of CSn). -/
def execPortResetRelease (p : Port) (s : State) : Outcome :=
  .next <|
    match (s.port p).link with
    | .held => s.setPort p { s.port p with link := .idle }
    | .idle | .command | .fetch => s

/-- The link state after device reset: HELD where PRSTn is asserted, else IDLE (R154). -/
def linkAfterReset : Link → Link
  | .held => .held
  | .idle | .command | .fetch => .idle

/-- DEVICE_RESET (R154): every record takes its device-reset value, every transaction ends, and RESET is held. The level the
master holds at CSn, the commands waiting, and the model's counts of free values, are kept. -/
def execDeviceReset (s : State) : Outcome :=
  .next
    { State.reset with
      pending := s.pending
      resetHeld := true
      ports := .tab fun p =>
        { PortUnit.reset with
          link := linkAfterReset (s.port p).link, csLow := (s.port p).csLow, stray := (s.port p).stray + 1 }
      freeDraws := s.freeDraws }

/-- RESET_RELEASE (R154): the ports take transactions, the locks run and the monitor judges the clock from now on. -/
def execResetRelease (s : State) : Outcome := .next { s with resetHeld := false }

end Sys2Proof.Machine
end

