-- ==== Sys2Proof/Machine/Sessions.lean ====
section
/-! DEFINITION. OPEN_SESSION, CLOSE_SESSION, ADOPT (chapter 7). -/

namespace Sys2Proof.Machine

/-- R124: refused SESSION_OPEN when the session is OPEN; else it opens, the epoch steps and the next event sequence number
is set to 0. -/
def openSession (p : Port) (s : State) : Reply :=
  let x := s.session p
  if x.isOpen then refuse .sessionOpen s
  else
    let s1 := s.setSession p { x with isOpen := true, epoch := x.epoch + 1 }
    let s2 := s1.setQueue p { s1.queue p with nextSeq := 0 }
    accept s2 [] [byteOf (Port.code p), x.epoch + 1, byteOf s2.orphanCount]

/-- OPEN_SESSION: the one command that passes the common checks on a CLOSED session. -/
def execOpenSession (p : Port) (seq : Byte) (params : List Byte) (s : State) : Outcome :=
  .next (takeCommand p seq params (params.length == 0) false (openSession p) s)

/-- R125: the close of R126 and its four counts. -/
def closeSession (p : Port) (s : State) : Reply :=
  let c := s.close p
  accept c.eff.st c.eff.evs
    [byteOf c.released, byteOf c.winding, byteOf c.orphaned, byteOf c.eff.st.routes.length]

def execCloseSession (p : Port) (seq : Byte) (params : List Byte) (s : State) : Outcome :=
  hostCommand p seq params 0 (closeSession p) s

/-- The first checks of a command that names a route (R18). -/
def withRoute (id : Nat) (s : State) (k : Route → Reply) : Reply :=
  if id = 0 ∨ maxRoutes < id then refuse .badArgument s
  else
    match s.route? id with
    | none => refuse .noSuchRoute s
    | some r => k r

/-- R133: the requesting port becomes the owner of an orphan, which is none any more. -/
def adopt (p : Port) (id : Nat) (s : State) : Reply :=
  withRoute id s fun r =>
    let x := s.session p
    if r.owner.isSome then refuse .notOrphan s
    else if maxOwned ≤ x.owned then refuse .quotaExceeded s
    else
      let s1 := s.setRoute { r with owner := some p, former := none, epoch := x.epoch }
      let s2 := s1.setSession p { x with owned := x.owned + 1 }
      accept s2 [{ aud := .everyOpenBut p, ev := .routeAdopted r.id r.sink r.domain p x.epoch }]
        [byteOf r.id, byteOf r.state.code, byteOf (Sink.wire r.sink), byteOf (Domain.code r.domain), x.epoch,
         byteOf (x.owned + 1)]

def execAdopt (p : Port) (seq : Byte) (params : List Byte) (s : State) : Outcome :=
  hostCommand p seq params 1 (fun s => adopt p (params.getD 0 0#8).toNat s) s

end Sys2Proof.Machine
end

