-- ==== Sys2Proof/Machine/Routes.lean ====
section
/-! DEFINITION. CONNECT, DISCONNECT, QUERY_ROUTE, LIST_ROUTES, and the reports the Route Table takes (chapters 1 and 2). -/

namespace Sys2Proof.Machine

/-! ### CONNECT: the checks of R5 to R9 -/

/-- A CONNECT whose parameters name a source and a sink. -/
structure ConnectArgs where
  source   : Source
  sink     : Sink
  domain   : Option Domain
  deriving DecidableEq, Repr

/-- R5: a parameter outside the values the part accepts. -/
def connectBadArgument (a : ConnectBytes) : Bool :=
  decide (3 < a.priority.toNat) || decide (120 < a.target.toNat) || decide (3 < a.rampRate.toNat)
    || decide (60000 < a.timeout) || !connectFlagsOk a.flags
    || match a.domain with
       | some b => (domain? b).isNone
       | none => false

/-- R6: the endpoints, or the result that refuses them. -/
def connectEndpoints (a : ConnectBytes) : Except Result (Source × Sink) :=
  match endpoint? a.source.toNat, endpoint? a.sink.toNat with
  | some (.source e), some (.sink t) =>
    match e, t with
    | .storeOut n, .storeIn m => if n = m then .error .loop else .ok (e, t)
    | _, _ => .ok (e, t)
  | some (.source _), some (.source _) => .error .notASink
  | some (.sink _), some _ => .error .notASource
  | _, _ => .error .noSuchEndpoint

/-- The source is an input channel of a disabled lane, or the sink an output channel of one (R7). -/
def onDisabledLane (s : State) (e : Source) (t : Sink) : Bool :=
  (match e with
   | .input l _ => !(s.inLanes.get l).enabled
   | .storeOut _ => false) ||
  (match t with
   | .output l _ => !(s.outLanes.get l).enabled
   | .storeIn _ => false)

/-- The source or the sink is an endpoint of a store of capacity 0 (R7). -/
def onUnconfiguredStore (s : State) (e : Source) (t : Sink) : Bool :=
  (match e with
   | .storeOut n => (s.store n).capacity == 0
   | .input _ _ => false) ||
  (match t with
   | .storeIn n => (s.store n).capacity == 0
   | .output _ _ => false)

/-- The domain a source gives: its lane's binding, or its store's (R8). -/
def sourceDomain (s : State) : Source → Option Domain
  | .input l _ => some (s.inLanes.get l).binding
  | .storeOut n => (s.store n).binding

/-- The domain a sink gives (R8). -/
def sinkDomain (s : State) : Sink → Option Domain
  | .output l _ => some (s.outLanes.get l).binding
  | .storeIn n => (s.store n).binding

/-- R8: the route's domain; none is DOMAIN_MISMATCH. -/
def connectDomain (s : State) (e : Source) (t : Sink) (named : Option Domain) : Option Domain :=
  match sourceDomain s e, sinkDomain s t with
  | some d, some d' => if d = d' then some d else none
  | some d, none => some d
  | none, some d => some d
  | none, none => named

/-! ### CONNECT: placement (R10, R29 to R32, R37, R38) -/

/-- The placement cases of Table 2.2. -/
inductive Placement
  | holder
  | preempt (h : Route)
  | sinkBusy
  | queueFull
  | wait
  deriving DecidableEq, Repr

/-- The route that holds a sink, by its holder field. -/
def State.holderOf (s : State) (t : Sink) : Option Route := (s.sinkEntry t).holder.bind s.route?

/-- R37: the holder a PREEMPT CONNECT of priority `prio` preempts, when its four conditions hold. -/
def preemptable (s : State) (t : Sink) (prio : Nat) : Option Route :=
  match s.holderOf t with
  | none => none
  | some h =>
    let ramping := match h.state with
      | .rampDown _ => true
      | _ => false
    if decide (h.priority < prio) && !ramping && ((s.claim t).all fun id => decide (s.priorityOf id < prio))
        && decide ((s.claim t).length < maxWaiters) then some h
    else none

/-- Table 2.2: the first case that applies (R29). -/
def placement (s : State) (t : Sink) (prio : Nat) (preempt nowait : Bool) : Placement :=
  if (s.sinkEntry t).holder.isNone && (s.claim t).isEmpty then .holder
  else
    match (if preempt then preemptable s t prio else none) with
    | some h => .preempt h
    | none =>
      if nowait then .sinkBusy
      else if maxWaiters ≤ (s.claim t).length then .queueFull
      else .wait

/-- The wait time left a route is placed with: its timeout, or none when that is 0 (R31, R43). -/
def waitLeft (timeoutMs : Nat) : Option Nat := if timeoutMs = 0 then none else some (msToXref timeoutMs)

/-- An unbound store of the route becomes bound to its domain (R10, R107). -/
def State.bindStore (s : State) (r : Route) (n : Idx) : State :=
  let st := s.store n
  if usesStore r n && st.binding.isNone then s.setStore n { st with binding := some r.domain } else s

/-- R10: the record is made, the owned-route count rises, and unbound stores become bound. -/
def State.createRoute (s : State) (p : Port) (r : Route) : State :=
  let s1 := { s with routes := insertRoute r s.routes }
  let x := s1.session p
  let s2 := s1.setSession p { x with owned := x.owned + 1 }
  (((s2.bindStore r .i0).bindStore r .i1).bindStore r .i2).bindStore r .i3

/-- R38: the preempted holder enters RAMP_DOWN from RAMP_UP or LIVE, and meets its outcome at once from ARMED or
SUSPENDED. -/
def preemptHolder (h : Route) (s : State) : Eff :=
  match h.state with
  | .rampUp | .live => { st := s.setRoute { h with state := .rampDown .preempted, rampCount := 0 }, evs := [] }
  | .armed | .suspended _ => carryOut .preempted h s
  | .rampDown _ | .waiting _ => { st := s, evs := [] }

/-- The payload of a CONNECT response (Table 10.6): the route as it is placed. -/
def connectPayload (r : Route) (place : Nat) : List Byte :=
  [byteOf r.id, byteOf r.state.code, byteOf (Domain.code r.domain), r.state.causesByte, byteOf place]

/-- Placement with the record made: `r` is in the state it is placed in. -/
def placeRoute (p : Port) (pl : Placement) (r : Route) (s : State) : Reply :=
  let s1 := s.createRoute p r
  match pl with
  | .holder => accept (s1.takeSink r.id r.source r.sink) [] (connectPayload r 0)
  | .preempt h =>
    let e := preemptHolder h (s1.setClaim r.sink (r.id :: s1.claim r.sink))
    accept e.st e.evs (connectPayload r 1)
  | .wait =>
    let q := insertClaim s1.priorityOf r.priority r.id (s1.claim r.sink)
    accept (s1.setClaim r.sink q) [] (connectPayload r (placeIn r.id q))
  | .sinkBusy => refuse .sinkBusy s
  | .queueFull => refuse .queueFull s

/-- CONNECT, past the checks of the host port: R5, R6, R7, R8, R9, then placement, the first that fails deciding. -/
def connect (p : Port) (a : ConnectBytes) (s : State) : Reply :=
  if connectBadArgument a then refuse .badArgument s
  else
    match connectEndpoints a with
    | .error res => refuse res s
    | .ok (e, t) =>
      if onDisabledLane s e t then refuse .laneDisabled s
      else if onUnconfiguredStore s e t then refuse .storeUnconfigured s
      else
        match connectDomain s e t (a.domain.bind domain?) with
        | none => refuse .domainMismatch s
        | some d =>
          let x := s.session p
          if maxOwned ≤ x.owned then refuse .quotaExceeded s
          else if maxRoutes ≤ s.routes.length then refuse .tableFull s
          else
            match lowestFreeId s.routes with
            | none => refuse .tableFull s
            | some id =>
              let pl := placement s t a.priority.toNat (flagPreempt a.flags) (flagNowait a.flags)
              let st := match pl with
                | .holder => s.holderState d e
                | _ => .waiting (waitLeft a.timeout)
              placeRoute p pl
                { id := id, owner := some p, former := none, epoch := x.epoch, source := e, sink := t, domain := d,
                  priority := a.priority.toNat, flags := keptFlags a.flags, target := a.target.toNat, current := 0,
                  rampRate := a.rampRate.toNat, rampCount := 0, state := st } s

/-- CONNECT takes 8 bytes without the domain parameter and 9 with it (R156). -/
def execConnect (p : Port) (seq : Byte) (params : List Byte) (s : State) : Outcome :=
  .next <| takeCommand p seq params (connectBytes? params).isSome true
    (fun s =>
      match connectBytes? params with
      | some a => connect p a s
      | none => refuse .badLength s) s

/-! ### DISCONNECT (R18, R19) -/

/-- Table 1.4. The response carries the route id and the route's state, 0 for released. -/
def disconnect (p : Port) (id : Nat) (s : State) : Reply :=
  withRoute id s fun r =>
    if r.owner ≠ some p then refuse .notOwner s
    else
      let released := fun (e : Eff) => accept e.st e.evs [byteOf r.id, 0#8]
      let ramping := fun (r' : Route) => accept (s.setRoute r') [] [byteOf r.id, byteOf r'.state.code]
      match r.state with
      | .waiting _ => released (releaseWaiter .disconnected false r s)
      | .armed | .suspended _ => released (releaseHolder .disconnected false r s)
      | .rampUp | .live => ramping { r with state := .rampDown .disconnected, rampCount := 0 }
      | .rampDown .preempted => ramping { r with state := .rampDown .disconnected }
      | .rampDown .disconnected => refuse .badState s

def execDisconnect (p : Port) (seq : Byte) (params : List Byte) (s : State) : Outcome :=
  hostCommand p seq params 1 (fun s => disconnect p (params.getD 0 0#8).toNat s) s

/-! ### QUERY_ROUTE and LIST_ROUTES (R24, R25) -/

def queryRoute (id : Nat) (s : State) : Reply := withRoute id s fun r => accept s [] (s.routeReport r)

def execQueryRoute (p : Port) (seq : Byte) (params : List Byte) (s : State) : Outcome :=
  hostCommand p seq params 1 (fun s => queryRoute (params.getD 0 0#8).toNat s) s

/-- The test a filter of LIST_ROUTES makes, or the result that refuses it (R25). -/
def listFilter (kind value : Byte) : Except Result (Route → Bool) :=
  match kind.toNat with
  | 1 =>
    match endpoint? value.toNat with
    | none => .error .noSuchEndpoint
    | some (.source _) => .error .notASink
    | some (.sink t) => .ok fun r => r.sink == t
  | 2 =>
    match endpoint? value.toNat with
    | none => .error .noSuchEndpoint
    | some (.sink _) => .error .notASource
    | some (.source e) => .ok fun r => r.source == e
  | 3 =>
    match owner? value with
    | none => .error .badArgument
    | some o => .ok fun r => r.owner == o
  | _ => .error .badArgument

def listRoutes (kind value : Byte) (s : State) : Reply :=
  match listFilter kind value with
  | .error res => refuse res s
  | .ok test =>
    let rs := s.routes.filter test
    accept s [] ([kind, value, byteOf rs.length] ++ routePairs rs)

def execListRoutes (p : Port) (seq : Byte) (params : List Byte) (s : State) : Outcome :=
  hostCommand p seq params 2 (fun s => listRoutes (params.getD 0 0#8) (params.getD 1 0#8) s) s

/-! ### The reports the Route Table takes (R13 to R15) -/

/-- A report is taken: it leaves the list, and `f` is done at each of the routes it concerns, each route's events a run
of its own. A report that was not sent, or stands behind an older one about the same thing, is not taken (log entry 6). -/
def takeRouteReport (same : RouteReport → Bool) (rep : RouteReport) (concerns : Route → Bool) (f : Route → State → Eff)
    (order : Picks) (s : State) : State :=
  match takeReport same rep s.routeReports with
  | none => s
  | some rest =>
    let x := forRoutes f (s.idsWhere concerns) { s with routeReports := rest }
    x.1.postRuns order x.2

/-- ROUTE_TABLE_DOMAIN_STOP (R13): every route of the domain is treated by its state as Table 1.3 says. -/
def execRouteTableDomainStop (d : Domain) (order : Picks) (s : State) : Outcome :=
  .next (takeRouteReport (RouteReport.aboutDomain d) (.domainStop d) (fun r => r.domain == d) domainDownAt order s)

/-- ROUTE_TABLE_DOMAIN_START (R15): DOMAIN_DOWN leaves every SUSPENDED route of the domain. -/
def execRouteTableDomainStart (d : Domain) (order : Picks) (s : State) : Outcome :=
  .next (takeRouteReport (RouteReport.aboutDomain d) (.domainStart d) (fun r => r.domain == d) (resume .domainDown) order s)

/-- SOURCES_DOWN (R14): every route fed from the lane is treated as R14 says. -/
def execSourcesDown (lane : Idx) (order : Picks) (s : State) : Outcome :=
  .next (takeRouteReport (RouteReport.aboutLane lane) (.sourcesDown lane) (fedFrom lane) sourceDownAt order s)

/-- SOURCES_UP (R15): SOURCE_DOWN leaves every SUSPENDED route fed from the lane. -/
def execSourcesUp (lane : Idx) (order : Picks) (s : State) : Outcome :=
  .next (takeRouteReport (RouteReport.aboutLane lane) (.sourcesUp lane) (fedFrom lane) (resume .sourceDown) order s)

end Sys2Proof.Machine
end

