-- ==== Sys2Proof/Machine/Arbiter.lean ====
section
/-! DEFINITION. The Sink Arbiter: GRANT, WAIT_TIMEOUT, QUERY_SINK (chapter 2). -/

namespace Sys2Proof.Machine

/-- The events of a route granted into SUSPENDED: one ROUTE_SUSPENDED for each cause, DOMAIN_DOWN first (R35). -/
def grantSuspendEvents (r : Route) (st : RouteState) : List Emit :=
  (if st.hasCause .domainDown then tellOwner r (.routeSuspended r.id r.sink .domainDown) else [])
    ++ (if st.hasCause .sourceDown then tellOwner r (.routeSuspended r.id r.sink .sourceDown) else [])

/-- R34, R35: the head of the claim queue of a free sink becomes its holder, in ARMED or SUSPENDED, and its timer is
cancelled. -/
def grantHead (r : Route) (s : State) : Eff :=
  let st := s.holderState r.domain r.source
  let s1 := (s.leaveClaim r.sink r.id).setRoute { r with state := st, current := 0, rampCount := 0 }
  { st := s1.takeSink r.id r.source r.sink,
    evs := tellOwner r (.routeGranted r.id r.sink) ++ grantSuspendEvents r st }

/-- GRANT: a sink that has a holder, or whose queue is empty, is left as it is (R34). DESIGN CHOICE (log entry 28): when the grant
after a release or a requeue is taken is for the sender of the commands to say. -/
def execGrant (t : Sink) (s : State) : Outcome :=
  .next <|
    if s.sinkHeld t then s
    else
      match (s.claim t).head?.bind s.route? with
      | none => s
      | some r =>
        let e := grantHead r s
        e.st.post e.evs

/-- WAIT_TIMEOUT (R44): a route whose wait timer has reached 0 while it is still WAITING is removed and released with cause
WAIT_TIMEOUT. A route that is no longer WAITING (R45), or whose timer has not reached 0, has no timeout to expire and is left
as it is (log entry 4). -/
def execWaitTimeout (id : Nat) (s : State) : Outcome :=
  .next <|
    match s.route? id with
    | none => s
    | some r =>
      if r.timedOut then
        let e := releaseWaiter .waitTimeout true r s
        e.st.post e.evs
      else s

/-- A command whose parameter is a sink (R47, R64). -/
def withSink (b : Byte) (s : State) (k : Sink → Reply) : Reply :=
  match endpoint? b.toNat with
  | none => refuse .noSuchEndpoint s
  | some (.source _) => refuse .notASink s
  | some (.sink t) => k t

/-- R47. -/
def querySink (b : Byte) (s : State) : Reply := withSink b s fun t => accept s [] (s.sinkReport t)

def execQuerySink (p : Port) (seq : Byte) (params : List Byte) (s : State) : Outcome :=
  hostCommand p seq params 1 (fun s => querySink (params.getD 0 0#8) s) s

end Sys2Proof.Machine
end

