-- ==== Sys2Proof/Machine/Lanes.lean ====
section
/-! DEFINITION. Endpoints and lanes: DESCRIBE_ENDPOINT, SET_TAG, FIND_TAG, SET_LANE, and the domain stops and starts the
Lane Units take (chapter 5). -/

namespace Sys2Proof.Machine

/-! ### The directory (R86 to R90) -/

def State.tagOf (s : State) : Endpoint → Tag
  | .source e => (s.sourceEntry e).tag
  | .sink t => (s.sinkEntry t).tag

def State.setTagOf (s : State) (e : Endpoint) (tag : Tag) : State :=
  match e with
  | .source x => s.setSourceEntry x { s.sourceEntry x with tag := tag }
  | .sink t => s.setSinkEntry t { s.sinkEntry t with tag := tag }

/-- R88. -/
def describeEndpoint (b : Byte) (s : State) : Reply :=
  match endpoint? b.toNat with
  | none => refuse .noSuchEndpoint s
  | some e => accept s [] (s.endpointReport e)

def execDescribeEndpoint (p : Port) (seq : Byte) (params : List Byte) (s : State) : Outcome :=
  hostCommand p seq params 1 (fun s => describeEndpoint (params.getD 0 0#8) s) s

/-- R89: the tag is completed with spaces, then checked; TAG_CHANGED is made even when the tag was the same. -/
def setTag (p : Port) (b : Byte) (chars : List Byte) (s : State) : Reply :=
  let tag := padTag chars
  match endpoint? b.toNat with
  | none => refuse .noSuchEndpoint s
  | some e =>
    if !tagPrintable tag then refuse .badArgument s
    else accept (s.setTagOf e tag) [{ aud := .everyOpenBut p, ev := .tagChanged e tag }] (b :: Tag.bytes tag)

/-- SET_TAG takes a wire number and one to four characters (R156). -/
def execSetTag (p : Port) (seq : Byte) (params : List Byte) (s : State) : Outcome :=
  .next <| takeCommand p seq params (decide (2 ≤ params.length) && decide (params.length ≤ 5)) true
    (fun s => setTag p (params.getD 0 0#8) params.tail s) s

/-- R90: the lowest wire number that carries the tag, and how many endpoints carry it. -/
def findTag (chars : List Byte) (s : State) : Reply :=
  let tag := padTag chars
  if !tagPrintable tag then refuse .badArgument s
  else
    match allEndpoints.filter fun e => s.tagOf e == tag with
    | [] => refuse .noSuchEndpoint s
    | e :: es => accept s [] [byteOf (Endpoint.wire e), byteOf (es.length + 1)]

def execFindTag (p : Port) (seq : Byte) (params : List Byte) (s : State) : Outcome :=
  hostCommand p seq params 4 (fun s => findTag params s) s

/-! ### SET_LANE (R97 to R100) -/

/-- The state an enabled lane enters: an input lane SEEKING, an output lane RUNNING (Table 5.4). -/
def enabledState : LaneId → LaneState
  | .input _ => .seeking
  | .output _ => .running

/-- The wires of an output lane from a SET_LANE that enables or rebinds it: low while its domain does not run (R96, R99);
while it runs, the manual does not say what they carry before that domain's first boundary after the command, and they are a
free value (log entry 11). -/
def State.wiresAfterSet (s : State) (l : LaneId) (d : Domain) : Sending :=
  match l with
  | .input _ => .low
  | .output _ => if s.running d then .unframed s.freeDraws else .low

/-- The lane record an accepted SET_LANE leaves (R98, R99, Table 5.4). What the wires of an output lane that it enables or
rebinds carry until the next boundary of a domain that runs is open in the manual (log entry 11). -/
def State.laneAfterSet (s : State) (l : LaneId) (enable : Bool) (d : Domain) : Lane :=
  let x := s.lane l
  if !enable then
    { x with enabled := false, binding := d, state := .disabled, goodRun := 0, badRun := 0, syncPhase := none, wires := .low }
  else if x.enabled && x.binding == d then x
  else
    { x with
      enabled := true, binding := d, state := enabledState l, goodRun := 0, badRun := 0, syncPhase := none,
      wires := s.wiresAfterSet l d }

/-- LANE_STATE is made when the lane moved into another state, and for an input lane from SEEKING into SEEKING under a
new binding (R100). -/
def laneStateMade (l : LaneId) (before after : Lane) : Bool :=
  before.state != after.state ||
    match l with
    | .input _ => before.state == .seeking && after.state == .seeking && before.binding != after.binding
    | .output _ => false

/-- A draw of a free value is counted when SET_LANE enables or rebinds an output lane (log entry 11). -/
def State.countDraw (s : State) (before after : Lane) : State :=
  if after.enabled && !(before.enabled && before.binding == after.binding) then { s with freeDraws := s.freeDraws + 1 } else s

/-- The lane record changes; a RUNNING input lane that leaves RUNNING reports its sources down (R95). -/
def State.changeLane (s : State) (l : LaneId) (after : Lane) : State :=
  match l with
  | .input i => (s.setLane l after).reportSources i (s.lane l).state after.state
  | .output _ => (s.setLane l after).countDraw (s.lane l) after

/-- R98 steps 1 and 2: the waiters and then the holders that use the lane are released with cause ENDPOINT_DISABLED, in
ascending order of id. -/
def State.releaseLane (s : State) (l : LaneId) : Eff :=
  let waiters := s.idsWhere fun r => usesLane r l && !r.state.holds
  let holders := s.idsWhere fun r => usesLane r l && r.state.holds
  let e1 := forRoutesInOrder (releaseWaiter .endpointDisabled true) waiters s
  let e2 := forRoutesInOrder (releaseHolder .endpointDisabled true) holders e1.st
  { st := e2.st, evs := e1.evs ++ e2.evs }

/-- An accepted SET_LANE (R98 to R100). -/
def applyLane (p : Port) (l : LaneId) (enable : Bool) (d : Domain) (s : State) : Reply :=
  let before := s.lane l
  let e := if before.enabled && !enable then s.releaseLane l else { st := s, evs := [] }
  let after := e.st.laneAfterSet l enable d
  let made := [({ aud := .everyOpenBut p, ev := .laneChanged l d enable } : Emit)]
    ++ (if laneStateMade l before after then [{ aud := .everyOpen, ev := .laneState l d after.state }] else [])
  accept (e.st.changeLane l after) (e.evs ++ made)
    [byteOf (LaneId.code l), flagByte enable, byteOf (Domain.code d), byteOf after.state.code,
     byteOf (s.routes.length - e.st.routes.length)]

/-- R97: BAD_ARGUMENT, LANE_IN_USE, NOT_OWNER, in this order. -/
def setLane (p : Port) (lb eb db : Byte) (s : State) : Reply :=
  match lane? lb, yesNo? eb, domain? db with
  | some l, some enable, some d =>
    let x := s.lane l
    if x.binding != d && s.routes.any fun r => usesLane r l then refuse .laneInUse s
    else if x.enabled && !enable && s.routes.any fun r => usesLane r l && r.owner != some p && r.owner != none then
      refuse .notOwner s
    else applyLane p l enable d s
  | _, _, _ => refuse .badArgument s

def execSetLane (p : Port) (seq : Byte) (params : List Byte) (s : State) : Outcome :=
  hostCommand p seq params 3 (fun s => setLane p (params.getD 0 0#8) (params.getD 1 0#8) (params.getD 2 0#8) s) s

/-! ### Domain stops and starts at the Lane Units (R94, R96) -/

/-- The lane takes a stop of domain `d`: an enabled input lane goes to SEEKING with both counters 0, an enabled output
lane holds its wires low. -/
def laneStopped (isInput : Bool) (d : Domain) (x : Lane) : Lane :=
  if x.enabled && x.binding == d then
    if isInput then { x with state := .seeking, goodRun := 0, badRun := 0, syncPhase := none }
    else { x with wires := .low }
  else x

/-- LANE_STATE for every open port when the lane was in RUNNING or FAULT (R94). -/
def laneMoveEvents (i : Idx) (before after : Lane) : List Emit :=
  if before.state = after.state then []
  else [{ aud := .everyOpen, ev := .laneState (.input i) after.binding after.state }]

/-- The input lanes become those of `after`, and each that leaves or enters RUNNING reports its sources. -/
def State.moveInLanes (s : State) (after : Quad Lane) : State :=
  let before := s.inLanes
  let step := fun (s : State) (i : Idx) => s.reportSources i (before.get i).state (after.get i).state
  step (step (step (step { s with inLanes := after } .i0) .i1) .i2) .i3

/-- LANE_DOMAIN_STOP (R94, R96). -/
def execLaneDomainStop (d : Domain) (order : Picks) (s : State) : Outcome :=
  .next <|
    match takeReport (LaneReport.aboutDomain d) (.domainStop d) s.laneReports with
    | none => s
    | some rest =>
      let after := Quad.tab fun i => laneStopped true d (s.inLanes.get i)
      let s1 := { s with laneReports := rest, outLanes := .tab fun i => laneStopped false d (s.outLanes.get i) }
      (s1.moveInLanes after).postRuns order
        (Idx.all.map fun i => laneMoveEvents i (s.inLanes.get i) (after.get i))

/-- The lane takes a start of domain `d`: no frame counts as judged good since then, so the first frame is judged without
the spacing of syncs (R92). -/
def laneStarted (d : Domain) (x : Lane) : Lane :=
  if x.enabled && x.binding == d then { x with syncPhase := none } else x

/-- LANE_DOMAIN_START (R94): the lanes stay in their states, judge frames from the first boundary on, and the output
lanes send from it on; both happen at FRAME_BOUNDARY (log entry 21). -/
def execLaneDomainStart (d : Domain) (s : State) : Outcome :=
  .next <|
    match takeReport (LaneReport.aboutDomain d) (.domainStart d) s.laneReports with
    | none => s
    | some rest => { s with laneReports := rest, inLanes := .tab fun i => laneStarted d (s.inLanes.get i) }

/-! ### The framing judge (R92, R93) -/

/-- The frame is good: exactly one sync, a whole multiple of 128 bits after the sync on record, if one is (R92). -/
def frameIsGood (phase : Option Nat) (rx : LaneRx) : Bool :=
  match rx.syncs with
  | [at_] => match phase with
    | some n => (n + at_) % 128 == 0
    | none => true
  | _ => false

/-- The bits since the sync of the last good frame, at the end of the interval, modulo 128. -/
def phaseAfter (phase : Option Nat) (rx : LaneRx) : Option Nat :=
  match frameIsGood phase rx, rx.syncs with
  | true, at_ :: _ => some ((rx.bits - at_) % 128)
  | _, _ => phase.map fun n => (n + rx.bits) % 128

/-- Table 5.3; both counters are 0 at every entry into a state (R93). -/
def laneJudged (x : Lane) (good : Bool) : Lane :=
  match x.state, good with
  | .seeking, true | .fault, true =>
    if x.goodRun + 1 = 8 then { x with state := .running, goodRun := 0, badRun := 0 }
    else { x with goodRun := x.goodRun + 1, badRun := 0 }
  | .seeking, false | .fault, false => { x with goodRun := 0, badRun := 0 }
  | .running, true => { x with badRun := 0 }
  | .running, false =>
    if x.badRun + 1 = 2 then { x with state := .fault, goodRun := 0, badRun := 0 } else { x with badRun := x.badRun + 1 }
  | .disabled, _ => x

/-- The 24 data bits at the head of a slot of a 128-bit lane frame, slot 0 first (section 5.3.A). -/
def frameSlot (frame : BitVec 128) (k : Idx) : Sample := frame.extractLsb' (104 - 32 * k.toNat) 24

/-- The lane frame that carries four samples: 24 data bits and eight zeros in each slot (R96). -/
def packFrame (q : Quad Sample) : BitVec 128 := (q.q0 ++ 0#8) ++ (q.q1 ++ 0#8) ++ (q.q2 ++ 0#8) ++ (q.q3 ++ 0#8)

/-- The lane judges a frame at this boundary: it is enabled and bound to the domain. -/
def laneJudges (d : Domain) (x : Lane) : Bool := x.enabled && x.binding == d

/-- An input lane after a boundary of domain `d`. -/
def laneAtBoundary (d : Domain) (x : Lane) (rx : LaneRx) : Lane :=
  if laneJudges d x then { laneJudged x (frameIsGood x.syncPhase rx) with syncPhase := phaseAfter x.syncPhase rx } else x

/-- The source samples the lane gives at the boundary: its slots when the frame is good and the lane is RUNNING after
the judgement, and 0 otherwise (R58, R92). -/
def laneSamples (d : Domain) (x : Lane) (rx : LaneRx) : Quad Sample :=
  if laneJudges d x && frameIsGood x.syncPhase rx && (laneAtBoundary d x rx).state == .running then
    .tab fun k => frameSlot rx.frame k
  else .const 0#24

end Sys2Proof.Machine
end

