-- ==== Sys2Proof/Machine/Gain.lean ====
section
/-! DEFINITION. Gain codes, ramps, the route stage and the trim stage (chapter 3), and SET_GAIN, SET_TRIM, RESET_METER. -/

namespace Sys2Proof.Machine

/-! ### Coefficients (R49, R61) -/

def gainTable0 : List Nat :=
    [0, 8886, 9412, 9970, 10561, 11186, 11849, 12551, 13295, 14083, 14917, 15801, 16737, 17729, 18780, 19893, 21071,
   22320, 23642, 25043]

def gainTable1 : List Nat :=
    [26527, 28099, 29764, 31528, 33396, 35374, 37471, 39691, 42043, 44534, 47173, 49968, 52929, 56065, 59387, 62906,
   66633, 70581, 74764, 79194]

def gainTable2 : List Nat :=
    [83886, 88857, 94122, 99699, 105606, 111864, 118492, 125513, 132950, 140828, 149173, 158012, 167375, 177292,
   187798, 198925, 210712, 223198, 236423, 250432]

def gainTable3 : List Nat :=
    [265271, 280989, 297639, 315275, 333956, 353745, 374705, 396908, 420426, 445338, 471726, 499678, 529285, 560648,
   593868, 629057, 666331, 705813, 747635, 791936]

def gainTable4 : List Nat :=
    [838861, 888566, 941217, 996988, 1056063, 1118639, 1184922, 1255133, 1329505, 1408283, 1491729, 1580119,
   1673747, 1772923, 1877975, 1989252, 2107123, 2231978, 2364231, 2504320]

def gainTable5 : List Nat :=
    [2652711, 2809894, 2976390, 3152753, 3339565, 3537447, 3747054, 3969080, 4204263, 4453381, 4717261, 4996776,
   5292854, 5606475, 5938680, 6290569, 6663308, 7058134, 7476355, 7919357]

def gainTable6 : List Nat :=
  [8388608]

/-- The gain coefficients of codes 0 to 120 (R49). -/
def gainTable : List Nat := gainTable0 ++ gainTable1 ++ gainTable2 ++ gainTable3 ++ gainTable4 ++ gainTable5 ++
   gainTable6

def trimTable0 : List Nat :=
    [8388608, 8885664, 9412173, 9969879, 10560632, 11186389, 11849224, 12551334, 13295048, 14082829, 14917289,
   15801194, 16737473]

def trimTable1 : List Nat :=
    [17729231, 18779754, 19892524, 21071231, 22319780, 23642310, 25043205, 26527108, 28098938, 29763904, 31527527,
   33395650]

/-- The trim coefficients of codes 0 to 24 (R61). -/
def trimTable : List Nat := trimTable0 ++ trimTable1

/-- The gain coefficient of a code: 0 for mute, else the integer nearest to 8388608 × 10^((k − 120)/40) (R49). -/
def gainCoeff (k : Nat) : Nat := gainTable.getD k 0

/-- The trim coefficient of a code: the integer nearest to 8388608 × 10^(t/40) (R61). -/
def trimCoeff (t : Nat) : Nat := trimTable.getD t 0

/-- A product divided by 8388608 and rounded to the nearest integer, ties away from zero (R50). -/
def scaleDown (x : Int) : Int :=
  if x < 0 then -(((x.natAbs + 4194304) / 8388608 : Nat) : Int) else (((x.natAbs + 4194304) / 8388608 : Nat) : Int)

/-- The route stage: a source sample at a gain code (R50). -/
def routeStage (x : Sample) (gain : Nat) : Sample := .ofInt 24 (scaleDown (x.toInt * gainCoeff gain))

/-- The trimmed value before saturation (R61). -/
def trimmed (x : Sample) (trim : Nat) : Int := scaleDown (x.toInt * trimCoeff trim)

/-- A value outside the range of a sample is replaced by the nearer end (R61). -/
def saturate (v : Int) : Sample :=
  if 8388607 < v then .ofInt 24 8388607 else if v < -8388608 then .ofInt 24 (-8388608) else .ofInt 24 v

/-- The value is replaced at saturation. -/
def clips (v : Int) : Bool := decide (8388607 < v) || decide (v < -8388608)

/-- The sample an output channel delivers (R61). -/
def trimStage (x : Sample) (trim : Nat) : Sample := saturate (trimmed x trim)

/-- The magnitude of a sample (section 0.7). -/
def magnitude (x : Sample) : Nat := x.toInt.natAbs

/-- The clip count and the peak meter after a sample formed for the channel (R61, R62). -/
def channelAfter (c : Channel) (x : Sample) : Channel :=
  { c with
    clips := if clips (trimmed x c.trim) && decide (c.clips < 65535) then c.clips + 1 else c.clips
    peak := if c.peak < magnitude (trimStage x c.trim) then magnitude (trimStage x c.trim) else c.peak }

/-! ### Ramps (R51 to R53) -/

/-- Boundaries between two steps at ramp rates 1, 2 and 3; rate 0 takes its aim in one boundary (R51). -/
def stepInterval : Nat → Nat
  | 0 => 1 | 1 => 1 | 2 => 4 | _ => 16

/-- One code toward the aim. -/
def stepToward (current aim : Nat) : Nat :=
  if current < aim then current + 1 else if aim < current then current - 1 else current

/-- "Advance" (R52): the ramp count rises, and when it equals the step interval the gain moves one code and the count
returns to 0; at rate 0 the gain is set to the aim. -/
def advance (aim : Nat) (r : Route) : Route :=
  if r.rampRate = 0 then { r with current := aim, rampCount := 0 }
  else if r.rampCount + 1 = stepInterval r.rampRate then { r with current := stepToward r.current aim, rampCount := 0 }
  else { r with rampCount := r.rampCount + 1 }

/-- What the step of a route hands the Route Table (R11, R53). -/
inductive StepReport
  | nothing
  | startedAtZero
  | targetReached
  | gainReached
  | zeroReached
  deriving DecidableEq, Repr

/-- The step of a route toward its aim: it rests with count 0 when it is there, and advances when it is not. -/
def moveToward (aim : Nat) (r : Route) : Route := if r.current = aim then { r with rampCount := 0 } else advance aim r

/-- The step of one route at a frame boundary of its domain (Table 3.2), with what is reported. The state changes of a
report other than zero reached are made here (R11, R12). -/
def stepRoute (r : Route) : Route × StepReport :=
  match r.state with
  | .waiting _ | .suspended _ => (r, .nothing)
  | .armed =>
    if r.target = 0 then ({ r with state := .live, current := 0, rampCount := 0 }, .startedAtZero)
    else ({ r with state := .rampUp, current := 0, rampCount := 0 }, .nothing)
  | .rampUp =>
    let r' := moveToward r.target r
    if r'.current = r.target then ({ r' with state := .live }, .targetReached) else (r', .nothing)
  | .live =>
    let r' := moveToward r.target r
    if r.current ≠ r.target ∧ r'.current = r.target then (r', .gainReached) else (r', .nothing)
  | .rampDown _ =>
    let r' := if r.current = 0 then r else advance 0 r
    if r'.current = 0 then (r', .zeroReached) else (r', .nothing)

/-- A route of the domain at its boundary: the step, and what its report brings about, one happening at its record
(R52, R53, R56). -/
def boundaryAt (r : Route) (s : State) : Eff :=
  let x := stepRoute r
  let s1 := s.setRoute x.1
  match x.2 with
  | .nothing => { st := s1, evs := [] }
  | .startedAtZero => { st := s1, evs := tellOwner r (.routeLive r.id r.sink 0) }
  | .targetReached => { st := s1, evs := tellOwner r (.routeLive r.id r.sink x.1.current) }
  | .gainReached =>
    { st := s1, evs := if r.flags.notify then tellOwner r (.gainReached r.id r.sink x.1.current) else [] }
  | .zeroReached =>
    match r.state with
    | .rampDown o => carryOut o x.1 s1
    | _ => { st := s1, evs := [] }

/-! ### SET_GAIN (R54, R55) -/

/-- The target is set; the ramp count and the current gain are kept (Table 3.4). -/
def setGain (p : Port) (id target : Nat) (s : State) : Reply :=
  if id = 0 ∨ maxRoutes < id ∨ 120 < target then refuse .badArgument s
  else
    withRoute id s fun r =>
      if r.owner ≠ some p then refuse .notOwner s
      else
        match r.state with
        | .rampDown _ => refuse .badState s
        | .waiting _ | .armed | .rampUp | .live | .suspended _ =>
          accept (s.setRoute { r with target := target }) []
            [byteOf r.id, byteOf r.state.code, byteOf target, byteOf r.current]

def execSetGain (p : Port) (seq : Byte) (params : List Byte) (s : State) : Outcome :=
  hostCommand p seq params 2 (fun s => setGain p (params.getD 0 0#8).toNat (params.getD 1 0#8).toNat s) s

/-! ### SET_TRIM and RESET_METER (R63, R64) -/

/-- A sink that must be an output channel: a store input is refused BAD_ARGUMENT (R63, R64). -/
def withChannel (b : Byte) (s : State) (k : Idx → Idx → Reply) : Reply :=
  withSink b s fun t =>
    match t with
    | .storeIn _ => refuse .badArgument s
    | .output l c => k l c

/-- R63. -/
def setTrim (p : Port) (b : Byte) (trim : Nat) (s : State) : Reply :=
  if 24 < trim then refuse .badArgument s
  else
    withChannel b s fun l k =>
      accept (s.setChannel l k { s.channel l k with trim := trim })
        [{ aud := .everyOpenBut p, ev := .trimChanged l k trim }] [b, byteOf trim]

def execSetTrim (p : Port) (seq : Byte) (params : List Byte) (s : State) : Outcome :=
  hostCommand p seq params 2 (fun s => setTrim p (params.getD 0 0#8) (params.getD 1 0#8).toNat s) s

/-- R64. -/
def resetMeter (b : Byte) (s : State) : Reply :=
  withChannel b s fun l k =>
    let c := s.channel l k
    accept (s.setChannel l k { c with peak := 0, clips := 0 }) [] ([b] ++ bytes3 c.peak ++ bytes2 c.clips)

def execResetMeter (p : Port) (seq : Byte) (params : List Byte) (s : State) : Outcome :=
  hostCommand p seq params 1 (fun s => resetMeter (params.getD 0 0#8) s) s

end Sys2Proof.Machine
end

