-- ==== Sys2Proof/Machine/Stores.lean ====
section
/-! DEFINITION. Sample stores (chapter 6): the ring, the service at a boundary, CONFIGURE_STORE, the host transfers and
QUERY_STORE. -/

namespace Sys2Proof.Machine

/-! ### The ring (R104) -/

/-- The cell after `pos`; after the last cell comes cell 0. -/
def nextCell (st : Store) (pos : Nat) : Nat := if pos + 1 < st.samples then pos + 1 else 0

/-- The sample is put at the tail. -/
def acceptSample (st : Store) (x : Sample) : Store :=
  { st with ring := st.ring ++ [x], writePos := nextCell st st.writePos, accepted := st.accepted + 1 }

/-- The head sample leaves; nothing happens to an empty ring. -/
def dropHead (st : Store) : Store :=
  match st.ring with
  | [] => st
  | _ :: xs => { st with ring := xs, readPos := nextCell st st.readPos }

/-- The head sample is handed out and counted, when there is one. -/
def deliverSample (st : Store) : Option (Sample × Store) :=
  match st.ring with
  | [] => none
  | x :: _ => some (x, { dropHead st with delivered := st.delivered + 1 })

/-- The head sample is dropped and counted as discarded. -/
def discardSample (st : Store) : Store :=
  match st.ring with
  | [] => st
  | _ :: _ => { dropHead st with discarded := st.discarded + 1 }

/-! ### Service at a frame boundary (R108 to R111) -/

/-- One sample is delivered to the reading routes; an empty ring counts an underrun and starts an episode (R108, R109).
The events, the source sample and the store. -/
def readSide (n : Idx) (st : Store) : Store × Sample × List Event :=
  match deliverSample st with
  | some (x, st') => (endOverrun st', x, [])
  | none =>
    ({ st with underruns := if st.underruns < 65535 then st.underruns + 1 else st.underruns, underrunEp := true },
      0#24, if st.underrunEp then [] else [.storeUnderrun n 0])

/-- A sample offered by a frame write (R110); a full ring acts by the overrun policy and starts an episode (R111). -/
def writeSide (n : Idx) (x : Sample) (st : Store) : Store × List Event :=
  if st.fill < st.samples then (endUnderrun (acceptSample st x), [])
  else
    let st' :=
      if st.keepNew then acceptSample (discardSample st) x else { st with rejected := st.rejected + 1 }
    ({ st' with overrunEp := true }, if st.overrunEp then [] else [.storeOverrun n st'.fill])

/-- The write side with the update of the marks that ends it (R110, R112). -/
def writeAndMark (n : Idx) (offered : Option Sample) (st : Store) : Store × List Event :=
  let w := match offered with
    | some x => writeSide n x st
    | none => (st, [])
  let m := updateMarks n w.1
  (m.1, w.2 ++ m.2)

/-- A store event is for every open port (R113). -/
def storeEmits (evs : List Event) : List Emit := evs.map fun ev => { aud := .everyOpen, ev := ev }

/-! ### CONFIGURE_STORE (R105, R106) -/

/-- The capacities of the stores other than `n` (R105). -/
def State.otherBlocks (s : State) (n : Idx) : Nat :=
  ((Idx.all.filter (· != n)).map fun m => (s.store m).capacity).sum

/-- The record an accepted CONFIGURE_STORE leaves (R106). -/
def configured (st : Store) (capacity : Nat) (keepNew : Bool) (low high : Nat) : Store :=
  { Store.reset with
    capacity := capacity
    keepNew := keepNew
    lowMark := if capacity = 0 then 0 else low
    highMark := if capacity = 0 then 0 else high
    binding := st.binding }

/-- R105, R106. -/
def configureStore (p : Port) (nb cap pol : Byte) (low high : Nat) (s : State) : Reply :=
  match store? nb, yesNo? pol with
  | some n, some keepNew =>
    if maxBlocks < cap.toNat then refuse .badArgument s
    else if s.routes.any fun r => usesStore r n then refuse .storeBusy s
    else if maxBlocks < s.otherBlocks n + cap.toNat then refuse .noMemory s
    else if cap.toNat ≠ 0 ∧ ¬(low < high ∧ high ≤ cap.toNat * blockSamples) then refuse .badArgument s
    else
      let st := configured (s.store n) cap.toNat keepNew low high
      let s1 := s.setStore n st
      accept s1 [{ aud := .everyOpenBut p, ev := .storeConfigured n cap.toNat }]
        ([nb, cap, pol] ++ bytes2 st.lowMark ++ bytes2 st.highMark ++ [byteOf s1.freeBlocks])
  | _, _ => refuse .badArgument s

def execConfigureStore (p : Port) (seq : Byte) (params : List Byte) (s : State) : Outcome :=
  let at_ := fun i => params.getD i 0#8
  hostCommand p seq params 7
    (fun s => configureStore p (at_ 0) (at_ 1) (at_ 2) (nat2 (at_ 3) (at_ 4)) (nat2 (at_ 5) (at_ 6)) s) s

/-! ### Host transfers (R114 to R116) -/

/-- Samples are accepted in the order given, up to the first that finds the ring full; how many were (R114). -/
def writeRun : List Sample → Store → Store × Nat
  | [], st => (st, 0)
  | x :: xs, st =>
    if st.fill < st.samples then
      let w := writeRun xs (acceptSample st x)
      (w.1, w.2 + 1)
    else (st, 0)

/-- Up to `k` samples leave the head, oldest first (R115). -/
def readRun : Nat → Store → Store × List Sample
  | 0, st => (st, [])
  | k + 1, st =>
    match deliverSample st with
    | none => (st, [])
    | some (x, st') =>
      let w := readRun k st'
      (w.1, x :: w.2)

/-- Every sample of the ring is discarded, oldest first (R116). -/
def flushRing : List Sample → Store → Store
  | [], st => st
  | _ :: xs, st => flushRing xs (discardSample st)

/-- STORE_WRITE (R114). -/
def storeWrite (nb count : Byte) (xs : List Sample) (s : State) : Reply :=
  match store? nb with
  | none => refuse .badArgument s
  | some n =>
    if count.toNat = 0 ∨ 80 < count.toNat then refuse .badArgument s
    else
      let st := s.store n
      if st.capacity = 0 then refuse .storeUnconfigured s
      else if s.sinkHeld (.storeIn n) then refuse .storeBusy s
      else
        let w := writeRun xs st
        let m := updateMarks n (endUnderrun w.1)
        accept (s.setStore n m.1) (storeEmits m.2) ([nb, byteOf w.2] ++ bytes2 m.1.fill)

/-- The length of a STORE_WRITE is 2 plus three times its count, and no more than a frame can carry (R156). -/
def storeWriteLength (params : List Byte) : Bool :=
  match params with
  | _ :: c :: rest => decide (rest.length = 3 * c.toNat) && decide (params.length ≤ 250)
  | _ => false

def execStoreWrite (p : Port) (seq : Byte) (params : List Byte) (s : State) : Outcome :=
  .next <| takeCommand p seq params (storeWriteLength params) true
    (fun s => storeWrite (params.getD 0 0#8) (params.getD 1 0#8) (samplesOf (params.drop 2)) s) s

/-- STORE_READ (R115). -/
def storeRead (nb count : Byte) (s : State) : Reply :=
  match store? nb with
  | none => refuse .badArgument s
  | some n =>
    if count.toNat = 0 ∨ 80 < count.toNat then refuse .badArgument s
    else
      let st := s.store n
      if st.capacity = 0 then refuse .storeUnconfigured s
      else if s.feedCount (.storeOut n) ≠ 0 then refuse .storeBusy s
      else
        let w := readRun count.toNat st
        let m := updateMarks n (endOverrun w.1)
        accept (s.setStore n m.1) (storeEmits m.2)
          ([nb, count, byteOf w.2.length] ++ bytes2 m.1.fill ++ bytes4 m.1.delivered.toNat ++ w.2.flatMap sampleBytes)

def execStoreRead (p : Port) (seq : Byte) (params : List Byte) (s : State) : Outcome :=
  hostCommand p seq params 2 (fun s => storeRead (params.getD 0 0#8) (params.getD 1 0#8) s) s

/-- FLUSH_STORE (R116). -/
def flushStore (nb : Byte) (s : State) : Reply :=
  match store? nb with
  | none => refuse .badArgument s
  | some n =>
    let st := s.store n
    if st.capacity = 0 then refuse .storeUnconfigured s
    else
      let m := updateMarks n (endOverrun (flushRing st.ring st))
      accept (s.setStore n m.1) (storeEmits m.2) ([nb] ++ bytes2 st.fill)

def execFlushStore (p : Port) (seq : Byte) (params : List Byte) (s : State) : Outcome :=
  hostCommand p seq params 1 (fun s => flushStore (params.getD 0 0#8) s) s

/-- QUERY_STORE (R117). -/
def queryStore (nb : Byte) (s : State) : Reply :=
  match store? nb with
  | none => refuse .badArgument s
  | some n => accept s [] (s.storeReport n)

def execQueryStore (p : Port) (seq : Byte) (params : List Byte) (s : State) : Outcome :=
  hostCommand p seq params 1 (fun s => queryStore (params.getD 0 0#8) s) s

end Sys2Proof.Machine
end

