-- ==== Sys2Proof/Machine/Domains.lean ====
section
/-! DEFINITION. Clock domains (chapter 4): SET_RATE, QUERY_DOMAIN, LOCK_COMPLETE, CLOCK_FOUND, CLOCK_LOST,
HOLDOVER_EXPIRED. -/

namespace Sys2Proof.Machine

/-- The holdover time: 500 ms (R76). -/
def holdoverMs : Nat := 500

/-- DOMAIN_STATE for every open port, for the state the domain has entered (R82). -/
def State.domainEvent (s : State) (d : Domain) : Emit :=
  { aud := .everyOpen, ev := .domainState d (s.domainState d) (s.eventRateCode d) }

/-- The nominal rate of a domain's frames while it runs (R68): of its rate code for FA and FB, the measured rate for FX. -/
def State.frameRate? (s : State) (d : Domain) : Option Rate :=
  if s.running d then
    match d with
    | .fa => s.fa.rateCode
    | .fb => s.fb.rateCode
    | .fx => s.fx.state.measured?
  else none

/-! ### FX (Table 4.3) -/

def State.setFx (s : State) (st : FxState) : State := { s with fx := { s.fx with state := st } }

/-- FX enters SEEKING; when the clock is present the monitor will report it found (R73). -/
def State.enterSeeking (s : State) : State :=
  { s.setFx .seeking with monitor := { s.monitor with reportDue := s.monitor.clock.isSome } }

/-- FX leaves SEEKING for another state: a report of its entry that is outstanding would be dropped (R73). -/
def State.leaveSeeking (s : State) (st : FxState) : State :=
  { s.setFx st with monitor := { s.monitor with reportDue := false } }

/-- Clock found at rate `r`, by the state of FX (Table 4.3, R77). -/
def fxClockFound (r : Rate) (s : State) : State :=
  match s.fx.state with
  | .seeking =>
    let s1 := s.leaveSeeking (.locking r)
    s1.post [s1.domainEvent .fx]
  | .holdover m _ =>
    if r = m then
      let s1 := s.setFx (.locked m)
      s1.post [s1.domainEvent .fx]
    else
      let s1 := (s.setFx (.locking r)).reportStop .fx
      s1.post [s1.domainEvent .fx]
  | .off | .locking _ | .locked _ => s

/-- CLOCK_FOUND (R73, R74): the clock goes from absent to present, or the report of an entry into SEEKING is made. Found
again at any other time, or while RESET is asserted, it changes nothing (log entry 5). -/
def execClockFound (r : Rate) (s : State) : Outcome :=
  .next <|
    if s.resetHeld then s
    else
      match s.monitor.clock with
      | none => fxClockFound r { s with monitor := { clock := some r, reportDue := false } }
      | some r0 =>
        if s.monitor.reportDue ∧ r = r0 ∧ s.fx.state = .seeking then fxClockFound r s else s

/-- CLOCK_LOST (R74, R76): from LOCKING FX goes back to SEEKING, from LOCKED into HOLDOVER for 500 ms. -/
def execClockLost (s : State) : Outcome :=
  .next <|
    if s.resetHeld ∨ s.monitor.clock = none then s
    else
      let s1 := { s with monitor := { clock := none, reportDue := false } }
      match s1.fx.state with
      | .locking _ =>
        let s2 := s1.setFx .seeking
        s2.post [s2.domainEvent .fx]
      | .locked m =>
        let s2 := s1.setFx (.holdover m (msToXref holdoverMs))
        s2.post [s2.domainEvent .fx]
      | .off | .seeking | .holdover _ _ => s1

/-- HOLDOVER_EXPIRED (R77): the holdover time left has reached 0 with FX still in HOLDOVER, and FX goes to SEEKING and stops.
At any other time there is no holdover to expire (log entry 4). -/
def execHoldoverExpired (s : State) : Outcome :=
  .next <|
    if s.fx.state.holdoverOver then
      let s1 := s.enterSeeking.reportStop .fx
      s1.post [s1.domainEvent .fx]
    else s

/-! ### Locks (R72, R75) -/

/-- The domain enters LOCKED, when a lock is in progress, with its frame count at 0 (R70). -/
def lockedState (s : State) : Domain → Option State
  | .fa => match s.fa.state with
    | .locking => some { s with fa := { s.fa with state := .locked, frameCount := 0 } }
    | .off | .locked => none
  | .fb => match s.fb.state with
    | .locking => some { s with fb := { s.fb with state := .locked, frameCount := 0 } }
    | .off | .locked => none
  | .fx => match s.fx.state with
    | .locking m => some { s with fx := { s.fx with state := .locked m, frameCount := 0 } }
    | .off | .seeking | .locked _ | .holdover _ _ => none

/-- LOCK_COMPLETE (R72, R75): the newest lock completes and the domain starts running. A domain with no lock in progress,
or a part held in RESET, has none to complete (log entry 5). -/
def execLockComplete (d : Domain) (s : State) : Outcome :=
  .next <|
    if s.resetHeld then s
    else
      match lockedState s d with
      | none => s
      | some s1 =>
        let s2 := s1.reportStart d
        s2.post [s2.domainEvent d]

/-! ### SET_RATE (R78 to R83) -/

/-- R78: the values SET_RATE cannot take. -/
def setRateBad (d : Domain) (code flags : Nat) : Bool :=
  decide (1 < flags) ||
    match d with
    | .fa | .fb => decide (5 < code)
    | .fx => decide (code ≠ 0) && decide (code ≠ 6)

/-- FA or FB with a rate code set (Table 4.2). -/
def IntDomain.withCode (x : IntDomain) (code : Nat) : IntDomain :=
  { x with rateCode := Rate.ofCode? code, state := if code = 0 then .off else .locking }

/-- The happening of Table 4.2 or Table 4.3 that the domain and the code select, before its stop is reported. -/
def State.withRate (s : State) (d : Domain) (code : Nat) : State :=
  match d with
  | .fa => { s with fa := s.fa.withCode code }
  | .fb => { s with fb := s.fb.withCode code }
  | .fx =>
    if code = 0 then { s.leaveSeeking .off with fx := { s.fx with external := false, state := .off } }
    else { s.enterSeeking with fx := { s.fx with external := true, state := .seeking } }

/-- R78, R79. -/
def setRate (db cb fb : Byte) (s : State) : Reply :=
  match domain? db with
  | none => refuse .badArgument s
  | some d =>
    if setRateBad d cb.toNat fb.toNat then refuse .badArgument s
    else if !bitOf fb 0 && s.holderCount d != 0 then refuse .domainBusy s
    else
      let s1 := s.withRate d cb.toNat
      let s2 := if s.running d then s1.reportStop d else s1
      let stopped := if s.running d then s.holderCount d else 0
      accept s2 [{ aud := .everyOpen, ev := .rateChanged d cb.toNat }, s2.domainEvent d]
        [db, cb, byteOf (s2.domainState d).code, byteOf stopped]

def execSetRate (p : Port) (seq : Byte) (params : List Byte) (s : State) : Outcome :=
  hostCommand p seq params 3 (fun s => setRate (params.getD 0 0#8) (params.getD 1 0#8) (params.getD 2 0#8) s) s

/-! ### QUERY_DOMAIN (R84) -/

def queryDomain (db : Byte) (s : State) : Reply :=
  match domain? db with
  | none => refuse .badArgument s
  | some d => accept s [] (s.domainReport d)

def execQueryDomain (p : Port) (seq : Byte) (params : List Byte) (s : State) : Outcome :=
  hostCommand p seq params 1 (fun s => queryDomain (params.getD 0 0#8) s) s

end Sys2Proof.Machine
end

