-- ==== Sys2Proof/Machine/Frame.lean ====
section
/-! DEFINITION. FRAME_BOUNDARY: the work of the Lane Units, the Store Unit, the Route Table and the Frame Path at one
boundary of a running domain (R11, R52, R58 to R62, R70, R92, R93, R96, R108 to R112). -/

namespace Sys2Proof.Machine

/-- The frame count rises by one, from 4294967295 to 0 (R70). -/
def State.countFrame (s : State) : Domain → State
  | .fa => { s with fa := { s.fa with frameCount := s.fa.frameCount + 1 } }
  | .fb => { s with fb := { s.fb with frameCount := s.fb.frameCount + 1 } }
  | .fx => { s with fx := { s.fx with frameCount := s.fx.frameCount + 1 } }

/-- The route takes part in the boundary, by the state in which the boundary reaches it (R108). -/
def takesPart (d : Domain) (r : Route) : Bool := r.domain == d && r.state.sounds

/-- The store is served at boundaries of the domain (R107). -/
def served (s : State) (d : Domain) (n : Idx) : Bool := (s.store n).binding == some d

/-- The read side of each store bound to the domain that some route taking part reads (R108); the others are left. -/
def readSides (s : State) (d : Domain) : Quad (Store × Sample × List Event) :=
  .tab fun n =>
    if served s d n && s.routes.any fun r => takesPart d r && r.source == .storeOut n then readSide n (s.store n)
    else (s.store n, 0#24, [])

/-- The source samples of a boundary: what the input lanes give and what the read sides deliver (R58). -/
def sourceSample (s : State) (d : Domain) (rx : Quad LaneRx) : Source → Sample
  | .input l k => (laneSamples d (s.inLanes.get l) (rx.get l)).get k
  | .storeOut n => ((readSides s d).get n).2.1

/-- What a sink receives from its holder, when the holder takes part: the route stage at the current gain after the
holder's step (R59, R60). -/
def offered (s : State) (d : Domain) (rx : Quad LaneRx) (t : Sink) : Option Sample :=
  match s.holderOf t with
  | none => none
  | some r =>
    if takesPart d r then some (routeStage (sourceSample s d rx r.source) (stepRoute r).1.current) else none

/-- The sample formed for an output channel before its trim; silence is 0 (R59). -/
def formed (s : State) (d : Domain) (rx : Quad LaneRx) (lane slot : Idx) : Sample :=
  (offered s d rx (.output lane slot)).getD 0#24

/-- An output lane whose channels have samples formed: enabled and bound to the domain (R58). -/
def laneSends (s : State) (d : Domain) (lane : Idx) : Bool :=
  (s.outLanes.get lane).enabled && (s.outLanes.get lane).binding == d

/-- The channels after the samples of the boundary (R61, R62). -/
def channelsAfter (s : State) (d : Domain) (rx : Quad LaneRx) : Quad (Quad Channel) :=
  .tab fun l =>
    if laneSends s d l then .tab fun k => channelAfter (s.channel l k) (formed s d rx l k) else s.channels.get l

/-- The output lanes of the domain send the samples delivered in the frame that begins (R96). -/
def outLanesAfter (s : State) (d : Domain) (rx : Quad LaneRx) : Quad Lane :=
  .tab fun l =>
    let x := s.outLanes.get l
    if laneSends s d l then
      { x with wires := .frame (packFrame (.tab fun k => trimStage (formed s d rx l k) (s.channel l k).trim)) }
    else x

/-- The input lanes after the judgement of the boundary (R92, R93). -/
def inLanesAfter (s : State) (d : Domain) (rx : Quad LaneRx) : Quad Lane :=
  .tab fun i => laneAtBoundary d (s.inLanes.get i) (rx.get i)

/-- Everything up to the write sides: the frame count, the lanes' judgement, the read sides, the steps of the routes (with
the events of each) and the output channels. -/
def beforeWrites (s : State) (d : Domain) (rx : Quad LaneRx) : State × List (List Emit) :=
  let s1 := (s.countFrame d).moveInLanes (inLanesAfter s d rx)
  let s2 := { s1 with stores := .tab fun n => ((readSides s d).get n).1 }
  let x := forRoutes boundaryAt (s.idsWhere fun r => r.domain == d) s2
  ({ x.1 with channels := channelsAfter s d rx, outLanes := outLanesAfter s d rx }, x.2)

/-- The write side of each store that was bound to the domain when the boundary came, with the marks (R110, R112). -/
def writeSides (s : State) (d : Domain) (rx : Quad LaneRx) (now : State) : Quad (Store × List Event) :=
  .tab fun n =>
    if served s d n then writeAndMark n (offered s d rx (.storeIn n)) (now.store n) else (now.store n, [])

/-- The work of one boundary of a running domain. -/
def boundary (s : State) (d : Domain) (rx : Quad LaneRx) (order : Picks) : State :=
  let x := beforeWrites s d rx
  let w := writeSides s d rx x.1
  let laneRuns := Idx.all.map fun i => laneMoveEvents i (s.inLanes.get i) ((inLanesAfter s d rx).get i)
  let storeRuns := Idx.all.map fun n => storeEmits (((readSides s d).get n).2.2 ++ (w.get n).2)
  { x.1 with stores := .tab fun n => (w.get n).1 }.postRuns order (laneRuns ++ x.2 ++ storeRuns)

/-- FRAME_BOUNDARY (R70): a domain that does not run produces none (log entry 5). -/
def execFrameBoundary (d : Domain) (rx : Quad LaneRx) (order : Picks) (s : State) : Outcome :=
  .next (if s.running d then boundary s d rx order else s)

end Sys2Proof.Machine
end

