-- ==== Sys2Proof/Machine/Events.lean ====
section
/-! DEFINITION. READ_EVENTS and ACK_EVENTS (chapter 8). -/

namespace Sys2Proof.Machine

/-- R140: entries from the head, without removing them. -/
def readEvents (p : Port) (n : Nat) (s : State) : Reply :=
  if n = 0 ∨ 16 < n then refuse .badArgument s
  else
    let es := (s.queue p).entries
    accept s [] (byteOf es.length :: (es.take n).flatMap Entry.bytes)

def execReadEvents (p : Port) (seq : Byte) (params : List Byte) (s : State) : Outcome :=
  hostCommand p seq params 1 (fun s => readEvents p (params.getD 0 0#8).toNat s) s

/-- The lost count of a marker among entries (R141). -/
def lostAmong (es : List Entry) : Option Nat := es.findSome? fun e =>
  match e.ev with
  | .lost c => some c
  | _ => none

/-- R141: the entry with the number and every entry ahead of it are removed. -/
def ackEvents (p : Port) (n : Nat) (s : State) : Reply :=
  let q := s.queue p
  match q.entries.findIdx? fun e => e.seq.toNat == n with
  | none => refuse .badArgument s
  | some i =>
    let gone := q.entries.take (i + 1)
    let left := q.entries.drop (i + 1)
    accept (s.setQueue p { q with entries := left }) []
      ([byteOf gone.length, byteOf left.length, flagByte (lostAmong gone).isSome] ++ bytes2 ((lostAmong gone).getD 0))

def execAckEvents (p : Port) (seq : Byte) (params : List Byte) (s : State) : Outcome :=
  hostCommand p seq params 2 (fun s => ackEvents p (nat2 (params.getD 0 0#8) (params.getD 1 0#8)) s) s

end Sys2Proof.Machine
end

