-- ==== Sys2Proof/Machine/Dispatch.lean ====
section
/-! DEFINITION. The meaning of every command: one arm for each row of spec/opcode_table.json. -/

namespace Sys2Proof.Machine

def exec (i : Instr) (s : State) : Host.Outcome State Fault Refusal :=
  match i with
  | .openSession p seq params => Sys2Proof.Machine.execOpenSession p seq params s
  | .closeSession p seq params => Sys2Proof.Machine.execCloseSession p seq params s
  | .describeEndpoint p seq params => Sys2Proof.Machine.execDescribeEndpoint p seq params s
  | .setTag p seq params => Sys2Proof.Machine.execSetTag p seq params s
  | .findTag p seq params => Sys2Proof.Machine.execFindTag p seq params s
  | .setLane p seq params => Sys2Proof.Machine.execSetLane p seq params s
  | .setRate p seq params => Sys2Proof.Machine.execSetRate p seq params s
  | .queryDomain p seq params => Sys2Proof.Machine.execQueryDomain p seq params s
  | .connect p seq params => Sys2Proof.Machine.execConnect p seq params s
  | .disconnect p seq params => Sys2Proof.Machine.execDisconnect p seq params s
  | .setGain p seq params => Sys2Proof.Machine.execSetGain p seq params s
  | .adopt p seq params => Sys2Proof.Machine.execAdopt p seq params s
  | .queryRoute p seq params => Sys2Proof.Machine.execQueryRoute p seq params s
  | .listRoutes p seq params => Sys2Proof.Machine.execListRoutes p seq params s
  | .querySink p seq params => Sys2Proof.Machine.execQuerySink p seq params s
  | .setTrim p seq params => Sys2Proof.Machine.execSetTrim p seq params s
  | .resetMeter p seq params => Sys2Proof.Machine.execResetMeter p seq params s
  | .configureStore p seq params => Sys2Proof.Machine.execConfigureStore p seq params s
  | .storeWrite p seq params => Sys2Proof.Machine.execStoreWrite p seq params s
  | .storeRead p seq params => Sys2Proof.Machine.execStoreRead p seq params s
  | .flushStore p seq params => Sys2Proof.Machine.execFlushStore p seq params s
  | .queryStore p seq params => Sys2Proof.Machine.execQueryStore p seq params s
  | .readEvents p seq params => Sys2Proof.Machine.execReadEvents p seq params s
  | .ackEvents p seq params => Sys2Proof.Machine.execAckEvents p seq params s
  | .fetch p clocked => Sys2Proof.Machine.execFetch p clocked s
  | .frameError p bytes => Sys2Proof.Machine.execFrameError p bytes s
  | .unknownCommand p code seq params => Sys2Proof.Machine.execUnknownCommand p code seq params s
  | .frameDiscarded p bytes => Sys2Proof.Machine.execFrameDiscarded p bytes s
  | .portReset p => Sys2Proof.Machine.execPortReset p s
  | .portResetRelease p => Sys2Proof.Machine.execPortResetRelease p s
  | .deviceReset => Sys2Proof.Machine.execDeviceReset s
  | .lockComplete d => Sys2Proof.Machine.execLockComplete d s
  | .clockFound r => Sys2Proof.Machine.execClockFound r s
  | .clockLost => Sys2Proof.Machine.execClockLost s
  | .holdoverExpired => Sys2Proof.Machine.execHoldoverExpired s
  | .frameBoundary d rx order => Sys2Proof.Machine.execFrameBoundary d rx order s
  | .routeTableDomainStop d order => Sys2Proof.Machine.execRouteTableDomainStop d order s
  | .routeTableDomainStart d order => Sys2Proof.Machine.execRouteTableDomainStart d order s
  | .laneDomainStop d order => Sys2Proof.Machine.execLaneDomainStop d order s
  | .laneDomainStart d => Sys2Proof.Machine.execLaneDomainStart d s
  | .sourcesDown lane order => Sys2Proof.Machine.execSourcesDown lane order s
  | .sourcesUp lane order => Sys2Proof.Machine.execSourcesUp lane order s
  | .grant t => Sys2Proof.Machine.execGrant t s
  | .waitTimeout id => Sys2Proof.Machine.execWaitTimeout id s
  | .commandCompletes p => Sys2Proof.Machine.execCommandCompletes p s
  | .resetRelease => Sys2Proof.Machine.execResetRelease s

end Sys2Proof.Machine
end

