-- ==== Sys2Proof/Config.lean ====
section
/-! DEFINITION. What the manual leaves without a value: free values, constants with no body. -/

namespace Sys2Proof

/-- The levels on the wires of an output lane from the SET_LANE that enables or rebinds it to the next boundary of its running
domain. R96 and Table 5.4 (R99) say what the lane sends from that boundary on and that it holds its wires low while its domain
does not run, and no more. The arguments are the draw, the wire, and the bit period with its half. UNVERIFIED; safe (log
entry 11). -/
opaque Config.unframedWires : Nat → LaneWire → Nat → Bool → Bool

/-- The level of an output lane's bit clock in the first half of each bit period; in the second half it has the other (R96). The
manual gives the bit clock's rate and not its edges. UNVERIFIED; safe (log entry 27). -/
opaque Config.bitClockFirst : Bool

/-- The level of SDOn while CSn is low and no transaction is in progress, since the one that began is ignored (R153): R145 has the
part drive the wire, and the manual does not say with what. The arguments are the port and a count of the levels used.
UNVERIFIED; safe (log entry 26). -/
opaque Config.ignoredSdo : Port → Nat → Bool

end Sys2Proof
end

