-- ==== Sys2Proof/Machine/Wires.lean ====
section
/-! DEFINITION. The wires of a host port (R145, R148, R152 to R154), those of an output lane (R96) and the signal pins of the part
(R155): what a master does at the wires bit by bit, and the levels the part drives. No step of the machine moves the wires (log entry 16). -/

namespace Sys2Proof.Machine

/-! ### The pins (R155, Table 9.3) -/

/-- The signal pins: six for each host port, three for each lane, WCLK, XREF and RESET. -/
inductive Pin
  | csn (p : Port) | sckn (p : Port) | sdin (p : Port) | sdon (p : Port) | attnn (p : Port) | prstn (p : Port)
  | bitClock (l : LaneId) | frameSync (l : LaneId) | laneData (l : LaneId)
  | wclk | xref | reset
  deriving DecidableEq, Repr

/-- The pins that are active low. -/
def Pin.activeLow : Pin → Bool
  | .csn _ | .attnn _ | .prstn _ | .reset => true
  | .sckn _ | .sdin _ | .sdon _ | .bitClock _ | .frameSync _ | .laneData _ | .wclk | .xref => false

/-- The level at a pin whose signal is asserted or not. -/
def Pin.level (pin : Pin) (asserted : Bool) : Bool := asserted != pin.activeLow

/-- The level at ATTNn, which the part drives at all times (push-pull; R143, R155). -/
def State.attnLevel (s : State) (p : Port) : Bool := (Pin.attnn p).level (s.attention p)

/-! ### The wires of an output lane (R96) -/

/-- The pin of an output lane's wire. -/
def LaneWire.pin (i : Idx) : LaneWire → Pin
  | .bitClock => .bitClock (.output i)
  | .frameSync => .frameSync (.output i)
  | .data => .laneData (.output i)

/-- The rate of an output lane's bit clock: 128 times the nominal frame rate of the bound domain; none while the lane is disabled
or the domain does not run. -/
def State.bitClockHz? (s : State) (i : Idx) : Option Nat :=
  let x := s.outLanes.get i
  if x.enabled then (s.frameRate? x.binding).map fun r => 128 * Rate.hz r else none

/-- Whether a wire is asserted in the bit period `n` of the frame, 0 to 127, in its first or its second half. One period of the bit
clock passes for each bit; the frame sync marks the first bit of slot 0, for the whole of its period (DEDUCED, log entry 27); the
bits are sent slot 0 first, each slot most significant bit first. -/
def Sending.asserted (x : Sending) (w : LaneWire) (n : Nat) (secondHalf : Bool) : Bool :=
  match x with
  | .low => false
  | .frame bits =>
    match w with
    | .bitClock => Config.bitClockFirst != secondHalf
    | .frameSync => n == 0
    | .data => bits.getLsbD (127 - n)
  | .unframed draw => Config.unframedWires draw w n secondHalf

/-- The level at the pin of an output lane's wire. -/
def State.laneLevel (s : State) (i : Idx) (w : LaneWire) (n : Nat) (secondHalf : Bool) : Bool :=
  (LaneWire.pin i w).level ((s.outLanes.get i).wires.asserted w n secondHalf)

/-! ### SDOn (R145, R148, R153 to R155) -/

/-- The bit that stands on SDOn in a transaction: 1 in every bit of a command frame, and in the first byte of any transaction, whose
kind is not known yet (DEDUCED, log entry 2); from the second byte of a FETCH on, the bits of the answer, each byte most
significant bit first, and 1 after its end. -/
def Transfer.sdoBit (x : Transfer) : Bool :=
  match x.fetched with
  | none => true
  | some h => if x.outBit < 8 then true else (bitsOfBytes h.fetchAnswer).getD (x.outBit - 8) true

/-- The level at SDOn: none, high impedance, while CSn is high, while PRSTn is asserted and in RESET. -/
def State.sdo (s : State) (p : Port) : Option Bool :=
  let u := s.port p
  if s.takes p && u.csLow then
    match u.transfer with
    | some x => some x.sdoBit
    | none => some (Config.ignoredSdo p u.stray)
  else none

/-! ### What a master does at the wires -/

/-- CSn falls; SCKn rises with a level at SDIn, or falls; CSn rises. -/
inductive Wire
  | csFall
  | sckRise (sdi : Bool)
  | sckFall
  | csRise
  deriving DecidableEq, Repr

/-- A bit taken from SDIn, on a rising edge of SCKn (R145, R155). The eighth completes the first byte, which decides the kind; the
answer to a FETCH is that of the holder as it stands then (R148). -/
def PortUnit.takeBit (u : PortUnit) (x : Transfer) (sdi : Bool) : PortUnit :=
  let bits := x.bits ++ [sdi]
  if bits.length = 8 then
    let kind := linkOfFirst ((bytesOfBits bits).headD 0#8)
    { u with
      link := kind
      transfer := some { x with bits := bits, fetched := if kind = .fetch then some u.holder else none } }
  else { u with transfer := some { x with bits := bits } }

/-- A falling edge of SCKn: the bit that the next rising edge samples is put on SDOn. -/
def PortUnit.shiftOut (u : PortUnit) : PortUnit :=
  match u.transfer with
  | some x => { u with transfer := some { x with outBit := x.bits.length } }
  | none => if u.csLow then { u with stray := u.stray + 1 } else u

/-- CSn rises. The levels that SDOn has in an ignored transaction are not drawn again. -/
def PortUnit.released (u : PortUnit) : PortUnit :=
  match u.transfer with
  | some _ => { u with csLow := false, transfer := none, link := .idle }
  | none => if u.csLow then { u with csLow := false, stray := u.stray + 1 } else u

/-- A command taken at once, before any command that waits; every command answers a next state. -/
def State.take (s : State) (c : Instr) : State :=
  match exec c s with
  | .next t => t
  | .fault _ | .refused _ => s

/-- The wires of port `p` (R145). In IDLE a falling edge of CSn begins a transaction; in HELD and in RESET nothing begins (R153,
R154). The rising edge ends it: a FETCH as its first byte found the holder (R148), a command frame with the command that its whole
bytes are, which is taken at that moment or discarded (R152); a transaction of no whole byte is ignored. -/
def State.wire (s : State) (p : Port) (w : Wire) : State :=
  let u := s.port p
  match w with
  | .csFall =>
    let begins := s.takes p && u.link == .idle && !u.csLow
    s.setPort p
      { u with csLow := true, transfer := if begins then some { bits := [], fetched := none, outBit := 0 } else u.transfer }
  | .sckRise sdi =>
    match u.transfer with
    | some x => s.setPort p (u.takeBit x sdi)
    | none => s
  | .sckFall => s.setPort p u.shiftOut
  | .csRise =>
    let ended := s.setPort p u.released
    match u.transfer with
    | none => ended
    | some x =>
      match x.fetched with
      | some h => ended.endFetch p h ((bytesOfBits x.bits).length - 1)
      | none =>
        match decodeWire p x.bits with
        | some c => ended.take c
        | none => ended

end Sys2Proof.Machine
end

