-- ==== Sys2Proof/Safety.lean ====
section
/-! DEFINITION. What a sound state of the part is, in the terms the statements use: the invariants the chapters give for
the records (every one a decidable property), the conditions under which a port takes a frame, and the manual's tables of
what happens to one route or one lane, written as functions of that record alone, what the ports are told, and the records
of chapter 10 byte by byte. -/

namespace Sys2Proof.Machine

/-! ### A port that takes a frame (R145, R147, R152 to R154) -/

/-- The holder is EXECUTING. -/
def Holder.busy : Holder → Bool
  | .executing _ => true
  | .empty | .ready _ | .fetched _ => false

/-- The port takes a frame and judges it: neither RESET nor its PRSTn is asserted, no close waits, and no command of the
port executes. -/
def State.ready (s : State) (p : Port) : Bool := s.takes p && !(s.port p).resetWaiting && !(s.port p).holder.busy

/-- The same, with the port's session OPEN. -/
def State.serving (s : State) (p : Port) : Bool := s.ready p && (s.session p).isOpen

/-- `s` with the response of a taken frame of `n` bytes in the holder, EXECUTING, and `n` bytes of 0xFF sent on SDOn. -/
def State.replied (s : State) (p : Port) (seq : Byte) (result : Result) (payload : List Byte) (n : Nat) : State :=
  { s with
    ports := s.ports.set p
      { s.ports.get p with
        holder := .executing { seq := seq, result := result, payload := payload }
        sent := List.replicate n 0xFF#8 } }

/-- The bytes of a host command as its port received them: port, code (Table 10.2), sequence byte and parameters. -/
def hostFrame? : Instr → Option (Port × Byte × Byte × List Byte)
  | .openSession p seq ps => some (p, 0x01#8, seq, ps)
  | .closeSession p seq ps => some (p, 0x02#8, seq, ps)
  | .describeEndpoint p seq ps => some (p, 0x03#8, seq, ps)
  | .setTag p seq ps => some (p, 0x04#8, seq, ps)
  | .findTag p seq ps => some (p, 0x05#8, seq, ps)
  | .setLane p seq ps => some (p, 0x06#8, seq, ps)
  | .setRate p seq ps => some (p, 0x07#8, seq, ps)
  | .queryDomain p seq ps => some (p, 0x08#8, seq, ps)
  | .connect p seq ps => some (p, 0x09#8, seq, ps)
  | .disconnect p seq ps => some (p, 0x0A#8, seq, ps)
  | .setGain p seq ps => some (p, 0x0B#8, seq, ps)
  | .adopt p seq ps => some (p, 0x0C#8, seq, ps)
  | .queryRoute p seq ps => some (p, 0x0D#8, seq, ps)
  | .listRoutes p seq ps => some (p, 0x0E#8, seq, ps)
  | .querySink p seq ps => some (p, 0x0F#8, seq, ps)
  | .setTrim p seq ps => some (p, 0x10#8, seq, ps)
  | .resetMeter p seq ps => some (p, 0x11#8, seq, ps)
  | .configureStore p seq ps => some (p, 0x12#8, seq, ps)
  | .storeWrite p seq ps => some (p, 0x13#8, seq, ps)
  | .storeRead p seq ps => some (p, 0x14#8, seq, ps)
  | .flushStore p seq ps => some (p, 0x15#8, seq, ps)
  | .queryStore p seq ps => some (p, 0x16#8, seq, ps)
  | .readEvents p seq ps => some (p, 0x17#8, seq, ps)
  | .ackEvents p seq ps => some (p, 0x18#8, seq, ps)
  | .fetch .. | .frameError .. | .unknownCommand .. | .frameDiscarded .. | .portReset .. | .portResetRelease ..
  | .deviceReset | .lockComplete .. | .clockFound .. | .clockLost | .holdoverExpired | .frameBoundary ..
  | .routeTableDomainStop .. | .routeTableDomainStart .. | .laneDomainStop .. | .laneDomainStart .. | .sourcesDown ..
  | .sourcesUp .. | .grant .. | .waitTimeout .. | .commandCompletes .. | .resetRelease => none

/-- The port of a command that is a transaction of a port, or that completes or resets one. -/
def portOf? : Instr → Option Port
  | .fetch p _ | .frameError p _ | .unknownCommand p _ _ _ | .frameDiscarded p _ | .portReset p | .portResetRelease p
  | .commandCompletes p => some p
  | c => (hostFrame? c).map (·.1)

/-- The lengths Table 10.2 gives each code: the number of parameter bytes, CONNECT with and without its domain, STORE_WRITE
2 plus three times its count, SET_TAG 2 to 5. -/
def lengthOk (code : Byte) (ps : List Byte) : Bool :=
  match code.toNat with
  | 0x01 | 0x02 => ps.length == 0
  | 0x03 | 0x08 | 0x0A | 0x0C | 0x0D | 0x0F | 0x11 | 0x15 | 0x16 | 0x17 => ps.length == 1
  | 0x04 => decide (2 ≤ ps.length) && decide (ps.length ≤ 5)
  | 0x05 => ps.length == 4
  | 0x06 | 0x07 => ps.length == 3
  | 0x09 => ps.length == 8 || ps.length == 9
  | 0x0B | 0x0E | 0x10 | 0x14 | 0x18 => ps.length == 2
  | 0x12 => ps.length == 7
  | 0x13 => decide (2 ≤ ps.length) && ps.length == 2 + 3 * (ps.getD 1 0#8).toNat && decide (ps.length ≤ 250)
  | _ => false

/-! ### Invariants of the link -/

/-- A close waits only for a command that executes; a port held in reset is empty but for such a command (R130, R131, R153).
The link is COMMAND or FETCH exactly while a transaction is in progress of which the first whole byte has been taken (R145). CSn
is low in every transaction; the holder of its first byte is kept in a FETCH alone (R148); the bit on SDOn is one that the bits
taken have reached. -/
def PortSound (u : PortUnit) : Prop :=
  (u.resetWaiting = true → u.holder.busy = true) ∧
  (u.link = .held → u.holder = .empty ∨ u.holder.busy = true ∧ u.resetWaiting = true) ∧
  (u.transfer = none → u.link = .idle ∨ u.link = .held) ∧
  ∀ x ∈ u.transfer, u.csLow = true ∧ x.outBit ≤ x.bits.length ∧ (x.fetched.isSome = true ↔ u.link = .fetch) ∧
    u.link = if x.bits.length < 8 then .idle else linkOfFirst ((bytesOfBits x.bits).headD 0#8)

def PortsSound (s : State) : Prop := ∀ p ∈ allPorts, PortSound (s.port p)

/-! ### Invariants of the Event Queues (R135, R136, R138, R144) -/

def Event.isLost : Event → Bool
  | .lost _ => true
  | _ => false

/-- The lost count of a LOST marker. -/
def Event.lostCount? : Event → Option Nat
  | .lost c => some c
  | _ => none

/-- A LOST marker counts from 1 to 65535 events. -/
def Event.countSound (ev : Event) : Prop := ∀ c ∈ ev.lostCount?, 1 ≤ c ∧ c ≤ 65535

/-- At most 32 entries, the thirty-second a LOST marker; a marker only at the tail; the sequence numbers are consecutive
and end just below the next one. -/
def QueueSound (q : EventQueue) : Prop :=
  q.entries.length ≤ 32 ∧
  (q.entries.length = 32 → q.marker?.isSome = true) ∧
  (∀ e ∈ q.entries.dropLast, e.ev.isLost = false) ∧
  (∀ e ∈ q.entries, e.ev.countSound) ∧
  q.entries.map (·.seq) =
    (List.range q.entries.length).map fun i => q.nextSeq - BitVec.ofNat 16 (q.entries.length - i)

/-- Every queue is sound, and the queue of a CLOSED session is empty (R126, R137). -/
def QueuesSound (s : State) : Prop :=
  ∀ p ∈ allPorts, QueueSound (s.queue p) ∧ ((s.session p).isOpen = false → (s.queue p).entries = [])

/-! ### Invariants of the Route Table (R1, R2, R4, R6, R51, R128) -/

/-- The ids rise strictly and lie from 1 to 48, so that no two routes share one and at most 48 stand (R2). -/
def RoutesOrdered (s : State) : Prop :=
  (s.routes.map (·.id)).Pairwise (· < ·) ∧ ∀ r ∈ s.routes, 1 ≤ r.id ∧ r.id ≤ 48

/-- The wait time left of a WAITING route that has one. -/
def RouteState.waitLeft? : RouteState → Option Nat
  | .waiting left => left
  | _ => none

/-- What a state asks of the gain and of the wait time left: gain 0 in WAITING, ARMED and SUSPENDED (R4), a wait time left
of at most 60000 ms (Table 1.1); it stands at 0 until its WAIT_TIMEOUT is taken. -/
def stateInRange (r : Route) : Prop :=
  (r.state.sounds = false → r.current = 0) ∧ ∀ n ∈ r.state.waitLeft?, n ≤ msToXref 60000

/-- The fields of Table 1.1 in their ranges; the ramp count stays below the step interval (R51); no route loops through
one store (R6). -/
def RouteInRange (r : Route) : Prop :=
  r.priority ≤ 3 ∧ r.target ≤ 120 ∧ r.current ≤ 120 ∧ r.rampRate ≤ 3 ∧ r.rampCount < stepInterval r.rampRate ∧
  (∀ n ∈ Idx.all, ¬(r.source = .storeOut n ∧ r.sink = .storeIn n)) ∧ stateInRange r

def RoutesInRange (s : State) : Prop := ∀ r ∈ s.routes, RouteInRange r

/-- A timer stands at 0 only until its happening is taken: the WAIT_TIMEOUT of the route, or HOLDOVER_EXPIRED, is in the queue
(R44, R77; so a wait time left of 0 is never reported as one: Table 1.1 has it more than 0). -/
def TimeoutsQueued (s : State) : Prop :=
  (∀ r ∈ s.routes, r.timedOut = true → .waitTimeout r.id ∈ s.pending) ∧
  (s.fx.state.holdoverOver = true → .holdoverExpired ∈ s.pending)

/-- An orphan holds its sink, has no REQUEUE, and has PERSIST unless it winds down to its release; orphans, and no other routes,
have a former owner (R128). -/
def OrphansHold (s : State) : Prop :=
  ∀ r ∈ s.routes, (r.owner = none ↔ r.former ≠ none) ∧
    (r.owner = none →
      r.state.holds = true ∧ r.flags.requeue = false ∧ (r.flags.persist = true ∨ r.state = .rampDown .disconnected))

/-! ### Invariants of the Session Table (R121, R122) -/

/-- The owned-route count is the number of routes the port owns, at most 24, and 0 while the session is CLOSED. -/
def OwnedCounted (s : State) : Prop :=
  ∀ p ∈ allPorts,
    (s.session p).owned = s.routes.countP (fun r => r.owner == some p) ∧ (s.session p).owned ≤ 24 ∧
    ((s.session p).isOpen = false → (s.session p).owned = 0)

/-- A route that has an owner carries the epoch of its owner's session (R1, R123). -/
def EpochsCurrent (s : State) : Prop :=
  ∀ p ∈ allPorts, ∀ r ∈ s.routes, r.owner = some p → r.epoch = (s.session p).epoch

/-! ### Invariants of the sinks (R3, R26, R27, R86) -/

/-- The holder field of a sink names the one route that holds it. -/
def HolderSound (s : State) (t : Sink) : Prop :=
  (∀ r ∈ s.routes, r.sink = t → r.state.holds = true → (s.sinkEntry t).holder = some r.id) ∧
  (∀ id ∈ (s.sinkEntry t).holder, ∃ r ∈ s.routes, r.id = id ∧ r.sink = t ∧ r.state.holds = true)

/-- The claim queue holds the waiting routes of the sink, each once, at most four, in descending order of priority. -/
def ClaimSound (s : State) (t : Sink) : Prop :=
  (∀ r ∈ s.routes, r.sink = t → r.state.holds = false → r.id ∈ s.claim t) ∧
  (∀ id ∈ s.claim t, ∃ r ∈ s.routes, r.id = id ∧ r.sink = t ∧ r.state.holds = false) ∧
  (s.claim t).Nodup ∧ (s.claim t).length ≤ 4 ∧
  (s.claim t).Pairwise (fun a b => s.priorityOf b ≤ s.priorityOf a)

/-- Every sink is sound, and the fan-out of a source counts the holders it feeds. -/
def SinksSound (s : State) : Prop :=
  (∀ t ∈ allSinks, HolderSound s t ∧ ClaimSound s t) ∧ ∀ e ∈ allSources, (s.sourceEntry e).fanOut = s.feedCount e

/-! ### Invariants of the lanes (R8, R91, R93, R96, R97) -/

def allLanes : List LaneId := Idx.all.map .input ++ Idx.all.map .output

/-- The record of an input lane (Table 5.2): DISABLED exactly while not enabled, runs below 8 and 2, the good run 0 in
RUNNING and the bad run 0 outside it. -/
def InLaneSound (x : Lane) : Prop :=
  (x.state = .disabled ↔ x.enabled = false) ∧ x.goodRun < 8 ∧ x.badRun < 2 ∧
  (x.state = .disabled → x.goodRun = 0 ∧ x.syncPhase = none) ∧
  (x.state = .running → x.goodRun = 0) ∧ (x.state ≠ .running → x.badRun = 0) ∧
  (∀ n ∈ x.syncPhase, n < 128) ∧ x.wires = .low

/-- The record of an output lane: DISABLED or RUNNING, with no runs; a disabled lane holds its wires low. -/
def OutLaneSound (x : Lane) : Prop :=
  (x.state = .disabled ↔ x.enabled = false) ∧ (x.state = .disabled ∨ x.state = .running) ∧
  x.goodRun = 0 ∧ x.badRun = 0 ∧ x.syncPhase = none ∧ (x.enabled = false → x.wires = .low)

def LanesSound (s : State) : Prop :=
  (∀ i ∈ Idx.all, InLaneSound (s.inLanes.get i)) ∧ ∀ i ∈ Idx.all, OutLaneSound (s.outLanes.get i)

/-- Every lane a route uses is enabled and bound to the route's domain (R7, R8, R97). -/
def LanesBound (s : State) : Prop :=
  ∀ r ∈ s.routes, ∀ l ∈ allLanes, usesLane r l = true → (s.lane l).enabled = true ∧ (s.lane l).binding = r.domain

/-! ### Invariants of the stores (R102 to R104, R107, R109, R111, R112) -/

/-- A store some route uses is configured and bound to that route's domain; a bound store is used by some route (R107). -/
def StoresBound (s : State) : Prop :=
  ∀ n ∈ Idx.all,
    (∀ r ∈ s.routes, usesStore r n = true → (s.store n).binding = some r.domain ∧ (s.store n).capacity ≠ 0) ∧
    ((s.store n).binding ≠ none → ∃ r ∈ s.routes, usesStore r n = true)

/-- A store record (Table 6.1): the fill within the ring, the positions and the totals agree with it (R104), the sides of
the marks follow it (R112), an underrun episode only on an empty ring (R109) and an overrun episode only on a full one
(R111). -/
def StoreSound (st : Store) : Prop :=
  st.fill ≤ st.samples ∧
  (if st.capacity = 0 then st.readPos = 0 ∧ st.writePos = 0
   else st.readPos < st.samples ∧ st.writePos = (st.readPos + st.fill) % st.samples) ∧
  st.accepted = st.delivered + st.discarded + BitVec.ofNat 32 st.fill ∧
  (if st.capacity = 0 then st.lowMark = 0 ∧ st.highMark = 0 else st.lowMark < st.highMark ∧ st.highMark ≤ st.samples) ∧
  st.aboveLow = (decide (st.capacity ≠ 0) && decide (st.lowMark < st.fill)) ∧
  st.atHigh = (decide (st.capacity ≠ 0) && decide (st.highMark ≤ st.fill)) ∧
  (st.underrunEp = true → st.fill = 0) ∧ (st.overrunEp = true → st.fill = st.samples) ∧
  st.underruns ≤ 65535

/-- Every store is sound, and together they have at most the 64 blocks of the memory (R102). -/
def StoresSound (s : State) : Prop :=
  (∀ n ∈ Idx.all, StoreSound (s.store n)) ∧
  s.stores.q0.capacity + s.stores.q1.capacity + s.stores.q2.capacity + s.stores.q3.capacity ≤ 64

/-! ### Invariants of the channels (R61, R62) -/

def ChannelSound (c : Channel) : Prop := c.trim ≤ 24 ∧ c.peak ≤ 8388608 ∧ c.clips ≤ 65535

def ChannelsSound (s : State) : Prop := ∀ l ∈ Idx.all, ∀ k ∈ Idx.all, ChannelSound (s.channel l k)

/-! ### Invariants of the clock domains (R67, R71 to R77) -/

/-- FA and FB are OFF exactly at rate code 0 (Table 4.2). -/
def IntSound (x : IntDomain) : Prop := x.state = .off ↔ x.rateCode = none

/-- FX against its rate code and the word-clock monitor (Tables 4.1 and 4.3): OFF exactly at rate code 0; present at the
measured rate in LOCKING and LOCKED; absent in HOLDOVER, with at most 500 ms left; a report of the clock due
exactly in SEEKING with the clock present. -/
def FxSound (s : State) : Prop :=
  (s.fx.external = true ↔ s.fx.state ≠ .off) ∧
  (s.monitor.reportDue = true ↔ s.fx.state = .seeking ∧ s.monitor.clock ≠ none) ∧
  match s.fx.state with
  | .off | .seeking => True
  | .locking m | .locked m => s.monitor.clock = some m
  | .holdover _ left => s.monitor.clock = none ∧ left ≤ msToXref 500

def ClocksSound (s : State) : Prop := IntSound s.fa ∧ IntSound s.fb ∧ FxSound s

/-! ### Routes agree with their domains and sources (section 1.5, R13 to R15, R69, R95) -/

def allDomains : List Domain := [.fa, .fb, .fx]

/-- The newest report about one thing that is still outstanding. -/
def newest (about : RouteReport → Bool) (s : State) : Option RouteReport := (s.routeReports.filter about).getLast?

/-- When no report about the domain is outstanding, a holder of the domain has the cause DOMAIN_DOWN exactly while the
domain does not run; the newest outstanding report says how the domain stands now. -/
def DomainAgrees (s : State) (d : Domain) : Prop :=
  match newest (RouteReport.aboutDomain d) s with
  | none => ∀ r ∈ s.routes, r.domain = d → r.state.holds = true → r.state.hasCause .domainDown = !s.running d
  | some rep => rep = if s.running d then .domainStart d else .domainStop d

/-- The same for the sources of an input lane and the cause SOURCE_DOWN. -/
def LaneAgrees (s : State) (i : Idx) : Prop :=
  match newest (RouteReport.aboutLane i) s with
  | none =>
    ∀ r ∈ s.routes, fedFrom i r = true → r.state.holds = true →
      r.state.hasCause .sourceDown = decide ((s.inLanes.get i).state ≠ .running)
  | some rep => rep = if (s.inLanes.get i).state = .running then .sourcesUp i else .sourcesDown i

/-- A store output never goes down (R95). -/
def StoreSourcesUp (s : State) : Prop :=
  ∀ r ∈ s.routes, ∀ n ∈ Idx.all, r.source = .storeOut n → r.state.hasCause .sourceDown = false

def CausesAgree (s : State) : Prop :=
  (∀ d ∈ allDomains, DomainAgrees s d) ∧ (∀ i ∈ Idx.all, LaneAgrees s i) ∧ StoreSourcesUp s

/-! ### A CONNECT that passes its checks (R5 to R10) -/

/-- The CONNECT of port `p` passes the checks of R5 to R9: source, sink and domain as R6 and R8 find them, and the id R2
gives. -/
structure ConnectPasses (s : State) (p : Port) (a : ConnectBytes) (e : Source) (t : Sink) (d : Domain) (id : Nat) :
    Prop where
  values     : connectBadArgument a = false
  endpoints  : connectEndpoints a = .ok (e, t)
  lanes      : onDisabledLane s e t = false
  configured : onUnconfiguredStore s e t = false
  domain     : connectDomain s e t (a.domain.bind domain?) = some d
  quota      : (s.session p).owned < 24
  room       : s.routes.length < 48
  freeId     : lowestFreeId s.routes = some id

/-- The record R10 makes, in the state it is placed in. -/
def connectRecord (s : State) (p : Port) (a : ConnectBytes) (e : Source) (t : Sink) (d : Domain) (id : Nat)
    (st : RouteState) : Route :=
  { id := id, owner := some p, former := none, epoch := (s.session p).epoch, source := e, sink := t, domain := d,
    priority := a.priority.toNat,
    flags := { persist := a.flags.getLsbD 0, requeue := a.flags.getLsbD 1, notify := a.flags.getLsbD 2 },
    target := a.target.toNat, current := 0, rampRate := a.rampRate.toNat, rampCount := 0, state := st }

/-- The bytes of a CONNECT of length 8, or 9 with its domain (Table 10.6). -/
def ConnectBytes.params (a : ConnectBytes) (hi lo : Byte) : List Byte :=
  [a.source, a.sink, a.priority, a.flags, a.target, a.rampRate, hi, lo] ++ a.domain.toList

/-! ### What the ports are told -/

/-- The queue of a port after events for it: those of an OPEN session are taken in turn, those of a CLOSED one dropped (R137). -/
def State.queueAfter (s : State) (q : Port) (evs : List Event) : EventQueue :=
  if (s.session q).isOpen then evs.foldl EventQueue.put (s.queue q) else s.queue q

/-- The events that tell of a route (Table 8.2). -/
def Event.ofRoute : Event → Bool
  | .routeGranted .. | .routeLive .. | .gainReached .. | .routeSuspended .. | .routeRequeued .. | .routeReleased ..
  | .routeOrphaned .. | .routeAdopted .. => true
  | .domainState .. | .rateChanged .. | .laneState .. | .laneChanged .. | .storeUnderrun .. | .storeOverrun ..
  | .storeLow .. | .storeHigh .. | .storeConfigured .. | .tagChanged .. | .trimChanged .. | .lost .. => false

/-- The store a store event names (Table 6.3). -/
def Event.store? : Event → Option Idx
  | .storeUnderrun n _ | .storeOverrun n _ | .storeLow n _ | .storeHigh n _ | .storeConfigured n _ => some n
  | .routeGranted .. | .routeLive .. | .gainReached .. | .routeSuspended .. | .routeRequeued .. | .routeReleased ..
  | .routeOrphaned .. | .routeAdopted .. | .domainState .. | .rateChanged .. | .laneState .. | .laneChanged ..
  | .tagChanged .. | .trimChanged .. | .lost .. => none

/-- The events that tell of a lane (Table 8.2). -/
def Event.ofLane : Event → Bool
  | .laneState .. | .laneChanged .. => true
  | _ => false

/-- R112: the mark events of a store whose sides were those of `st` and whose fill is now `fill`. -/
def markEvents (n : Idx) (st : Store) (fill : Nat) : List Event :=
  (if st.aboveLow = true ∧ fill ≤ st.lowMark then [.storeLow n fill] else []) ++
    (if st.atHigh = false ∧ st.highMark ≤ fill then [.storeHigh n fill] else [])

/-! ### What the manual's tables do to one route -/

/-- Table 7.2 (R127, R128): a route of the closing port after the close; none when it is released. -/
def closedRoute (r : Route) : Option Route :=
  let orphan := { r with owner := none, former := r.owner, flags := { r.flags with requeue := false } }
  match r.state with
  | .waiting _ => none
  | .armed | .suspended _ => if r.flags.persist then some orphan else none
  | .rampUp | .live =>
    if r.flags.persist then some orphan else some { orphan with state := .rampDown .disconnected, rampCount := 0 }
  | .rampDown _ => if r.flags.persist then some orphan else some { orphan with state := .rampDown .disconnected }

/-- The ROUTE_ORPHANED events of the close of port `p`'s session, in ascending order of id (R126, R128): the pending outcome when
the orphan is in RAMP_DOWN, the former owner and the owner epoch. -/
def State.orphanEvents (s : State) (p : Port) : List Event :=
  (s.routes.filter fun r => r.owner == some p).filterMap fun r => (closedRoute r).map fun o =>
    .routeOrphaned r.id r.sink r.domain
      (match o.state with
        | .rampDown x => some x
        | _ => none) p r.epoch

/-- `t` is `s` after the close of port `p`'s session (R126 to R128), the port's own unit apart: the session is CLOSED with no owned
routes and its epoch kept, its event queue is emptied, each of its routes is treated by Table 7.2 and every other is kept, every
other open port is told ROUTE_ORPHANED of each orphan in ascending order of id and nothing else, and the records the close does not
reach are as they were. -/
structure SessionCloses (s : State) (p : Port) (t : State) : Prop where
  session : t.session p = { isOpen := false, epoch := (s.session p).epoch, owned := 0 }
  queue   : t.queue p = { entries := [], nextSeq := (s.queue p).nextSeq }
  routes  : ∀ r ∈ s.routes, t.route? r.id = if r.owner = some p then closedRoute r else some r
  noOther : ∀ id, s.route? id = none → t.route? id = none
  others  : ∀ q, q ≠ p → t.port q = s.port q ∧ t.session q = s.session q ∧ t.queue q = s.queueAfter q (s.orphanEvents p)
  kept    : (t.fa, t.fb, t.fx, t.monitor, t.inLanes, t.outLanes, t.channels, t.routeReports, t.laneReports) =
    (s.fa, s.fb, s.fx, s.monitor, s.inLanes, s.outLanes, s.channels, s.routeReports, s.laneReports)

/-- The causes a SUSPENDED route has when one more comes (R13, R14). -/
def withCause (cs : Causes) (c : SuspendCause) : Causes :=
  match cs, c with
  | .domainDown, .domainDown => .domainDown
  | .sourceDown, .sourceDown => .sourceDown
  | .both, _ | .domainDown, .sourceDown | .sourceDown, .domainDown => .both

/-- The current gain and the ramp count after a step toward an aim: at rest with count 0, or one advance (R51, R52). -/
def steppedGain (r : Route) (aim : Nat) : Nat × Nat :=
  if r.current = aim then (r.current, 0)
  else if r.rampRate = 0 then (aim, 0)
  else if r.rampCount + 1 < stepInterval r.rampRate then (r.current, r.rampCount + 1)
  else if r.current < aim then (r.current + 1, 0)
  else (r.current - 1, 0)

/-- The entries of a claim queue in order that stay ahead of a route of priority `p` inserted by R27, and those behind it. -/
def State.aheadOf (s : State) (p : Nat) (q : List Nat) : List Nat := q.filter fun id => p ≤ s.priorityOf id
def State.behindOf (s : State) (p : Nat) (q : List Nat) : List Nat := q.filter fun id => s.priorityOf id < p

/-- R40: the route is requeued when it is preempted. -/
def State.waitsAgain (s : State) (r : Route) : Bool :=
  r.flags.requeue && r.owner != none && decide ((s.claim r.sink).length < 4)

/-- R40: what its owner is told at the end of a preemption: ROUTE_REQUEUED with the place it waits at, or ROUTE_RELEASED. -/
def State.preemptedEvent (s : State) (r : Route) : Event :=
  if s.waitsAgain r then .routeRequeued r.id r.sink ((s.aheadOf r.priority (s.claim r.sink)).length + 1)
  else .routeReleased r.id r.sink .preempted

/-- What the owner of a route is told when a suspend cause comes, by the state the route is in (Table 1.3, R14). -/
def State.downEvent (s : State) (c : SuspendCause) (r : Route) : Option Event :=
  match r.state with
  | .waiting _ => none
  | .armed | .rampUp | .live => some (.routeSuspended r.id r.sink c)
  | .suspended cs => if cs = withCause cs c then none else some (.routeSuspended r.id r.sink c)
  | .rampDown .disconnected => some (.routeReleased r.id r.sink .disconnected)
  | .rampDown .preempted => some (s.preemptedEvent r)

/-- What the owner of a route is told when a suspend cause goes: ROUTE_GRANTED with the last one (R15). -/
def upEvent (c : SuspendCause) (r : Route) : Option Event :=
  match r.state, c with
  | .suspended .domainDown, .domainDown | .suspended .sourceDown, .sourceDown => some (.routeGranted r.id r.sink)
  | _, _ => none

/-- What the owner of a route is told at a boundary of its domain (R11, R12, R17, R53, R56). -/
def State.boundaryEvent (s : State) (r : Route) : Option Event :=
  match r.state with
  | .waiting _ | .suspended _ => none
  | .armed => if r.target = 0 then some (.routeLive r.id r.sink 0) else none
  | .rampUp => if (steppedGain r r.target).1 = r.target then some (.routeLive r.id r.sink r.target) else none
  | .live =>
    if r.current ≠ r.target ∧ (steppedGain r r.target).1 = r.target ∧ r.flags.notify = true then
      some (.gainReached r.id r.sink r.target)
    else none
  | .rampDown o =>
    if (steppedGain r 0).1 ≠ 0 then none
    else
      match o with
      | .disconnected => some (.routeReleased r.id r.sink .disconnected)
      | .preempted => some (s.preemptedEvent r)

/-- The events for port `q` of a happening that concerns several routes, in ascending order of id: each owner is told of its
own routes (R137). -/
def State.ownerEvents (s : State) (q : Port) (concerns : Route → Bool) (f : Route → Option Event) : List Event :=
  (s.routes.filter fun r => concerns r && r.owner == some q).filterMap f

/-! ### The records of chapter 10 byte by byte (section 0.7, R160, R162, Tables 10.3 and 10.8 to 10.12), written out apart from
the operations that make them -/

namespace Layout

def num (n : Nat) : Byte := BitVec.ofNat 8 n
def two (n : Nat) : List Byte := [num (n / 256), num n]
def three (n : Nat) : List Byte := [num (n / 65536), num (n / 256), num n]
def four (n : Nat) : List Byte := [num (n / 16777216), num (n / 65536), num (n / 256), num n]

/-- The value of one flag of a flag byte. -/
def bit (b : Bool) (n : Nat) : Nat := if b then n else 0

def source : Source → Nat
  | .input l k => 4 * l.toNat + k.toNat
  | .storeOut n => 36 + n.toNat

def sink : Sink → Nat
  | .output l k => 16 + 4 * l.toNat + k.toNat
  | .storeIn n => 32 + n.toNat

def domain : Domain → Nat
  | .fa => 0 | .fb => 1 | .fx => 2

def binding : Option Domain → Nat
  | some d => domain d
  | none => 255

def port : Port → Nat
  | .hp0 => 0 | .hp1 => 1 | .hp2 => 2

def owner : Option Port → Nat
  | some p => port p
  | none => 255

def lane : LaneId → Nat
  | .input i => 64 + i.toNat
  | .output i => 68 + i.toNat

def laneState : LaneState → Nat
  | .disabled => 0 | .seeking => 1 | .running => 2 | .fault => 3

def rate : Option Rate → Nat
  | none => 0
  | some .r32000 => 1 | some .r44100 => 2 | some .r48000 => 3 | some .r88200 => 4 | some .r96000 => 5

def outcome : Pending → Nat
  | .disconnected => 1 | .preempted => 2

def state (r : Route) : Nat :=
  match r.state with
  | .waiting _ => 1 | .armed => 2 | .rampUp => 3 | .live => 4 | .rampDown _ => 5 | .suspended _ => 6

/-- Periods of XREF as whole milliseconds, rounded up. -/
def ms (n : Nat) : Nat := (n + 24575) / 24576

/-- The wait time left of a route, 0 when it has none. -/
def wait (r : Route) : Nat :=
  match r.state with
  | .waiting (some n) => ms n
  | _ => 0

/-- An event's code and presence byte, route, endpoint, domain, cause, value and tag. -/
def eventRow (ev : Event) : Byte × Byte × Nat × Nat × Nat × Nat × Nat × List Byte :=
  let none4 := [0#8, 0#8, 0#8, 0#8]
  match ev with
  | .routeGranted id t => (0x01, 0x03, id, sink t, 0, 0, 0, none4)
  | .routeLive id t g => (0x02, 0x13, id, sink t, 0, 0, g, none4)
  | .gainReached id t g => (0x03, 0x13, id, sink t, 0, 0, g, none4)
  | .routeSuspended id t c => (0x04, 0x0B, id, sink t, 0, (match c with
    | .domainDown => 5 | .sourceDown => 6), 0, none4)
  | .routeRequeued id t place => (0x05, 0x13, id, sink t, 0, 0, place, none4)
  | .routeReleased id t c => (0x06, 0x0B, id, sink t, 0, (match c with
    | .disconnected => 1 | .preempted => 2 | .waitTimeout => 3 | .endpointDisabled => 4), 0, none4)
  | .routeOrphaned id t d none p e => (0x07, 0x17, id, sink t, domain d, 0, 256 * port p + e.toNat, none4)
  | .routeOrphaned id t d (some o) p e =>
    (0x07, 0x1F, id, sink t, domain d, outcome o, 256 * port p + e.toNat, none4)
  | .routeAdopted id t d p e => (0x08, 0x17, id, sink t, domain d, 0, 256 * port p + e.toNat, none4)
  | .domainState d st r => (0x10, 0x1C, 0, 0, domain d, (match st with
    | .off => 0 | .seeking => 1 | .locking => 2 | .locked => 3 | .holdover => 4), r, none4)
  | .rateChanged d r => (0x11, 0x14, 0, 0, domain d, 0, r, none4)
  | .laneState l d st => (0x12, 0x0E, 0, lane l, domain d, laneState st, 0, none4)
  | .laneChanged l d on => (0x13, 0x16, 0, lane l, domain d, 0, bit on 1, none4)
  | .storeUnderrun k f => (0x18, 0x12, 0, 32 + k.toNat, 0, 0, f, none4)
  | .storeOverrun k f => (0x19, 0x12, 0, 32 + k.toNat, 0, 0, f, none4)
  | .storeLow k f => (0x1A, 0x12, 0, 32 + k.toNat, 0, 0, f, none4)
  | .storeHigh k f => (0x1B, 0x12, 0, 32 + k.toNat, 0, 0, f, none4)
  | .storeConfigured k c => (0x1C, 0x12, 0, 32 + k.toNat, 0, 0, c, none4)
  | .tagChanged (.source e) g => (0x20, 0x22, 0, source e, 0, 0, 0, [g.q0, g.q1, g.q2, g.q3])
  | .tagChanged (.sink t) g => (0x20, 0x22, 0, sink t, 0, 0, 0, [g.q0, g.q1, g.q2, g.q3])
  | .trimChanged l k v => (0x21, 0x12, 0, sink (.output l k), 0, 0, v, none4)
  | .lost c => (0xFF, 0x10, 0, 0, 0, 0, c, none4)

/-- Table 10.11. -/
def eventRecord (n : BitVec 16) (ev : Event) : List Byte :=
  let (code, presence, route, endpoint, domain, cause, value, tag) := eventRow ev
  [code] ++ two n.toNat ++ [presence, num route, num endpoint, num domain, num cause] ++ two value ++ tag

/-- Table 10.8, route report: a route with its place in the claim queue, 0 for a holder. The owner byte of an
orphan is NONE (R132; log entry 25). -/
def routeReport (r : Route) (place : Nat) : List Byte :=
  [num r.id, num (owner r.owner), r.epoch, num (source r.source), num (sink r.sink), num (domain r.domain), num r.priority,
   num (bit r.flags.persist 1 + bit r.flags.requeue 2 + bit r.flags.notify 4), num r.target, num r.current, num r.rampRate,
   num r.rampCount, num (state r),
   num (match r.state with
    | .suspended .domainDown => 1
    | .suspended .sourceDown => 2
    | .suspended .both => 3
    | _ => 0),
   num (match r.state with
    | .rampDown o => outcome o
    | _ => 0),
   num place] ++ two (wait r)

/-- Table 10.9, sink report: a sink with its holder and its waiters, head first. -/
def sinkReport (s : State) (t : Sink) (holder : Option Route) (waiters : List Route) : List Byte :=
  [num (sink t)] ++
    (match holder with
      | some h => [num h.id, num (owner h.owner), num h.priority, num (state h)]
      | none => [0#8, 0#8, 0#8, 0#8]) ++
    [num waiters.length] ++
    waiters.flatMap (fun w => [num w.id, num (owner w.owner), num w.priority] ++ two (wait w)) ++
    List.replicate (20 - 5 * waiters.length) 0#8 ++
    (match t with
      | .output l k => [num (s.channel l k).trim] ++ three (s.channel l k).peak ++ two (s.channel l k).clips
      | .storeIn _ => [255#8, 0#8, 0#8, 0#8, 0#8, 0#8])

/-- Table 10.10, store report. -/
def storeReport (s : State) (n : Idx) : List Byte :=
  let st := s.store n
  [num n.toNat, num st.capacity, num (bit st.keepNew 1)] ++ two st.lowMark ++ two st.highMark ++ two st.ring.length ++
    two st.readPos ++ two st.writePos ++
    [num (binding st.binding), num (bit st.underrunEp 1 + bit st.overrunEp 2 + bit (!st.aboveLow) 4 + bit st.atHigh 8)] ++
    four st.accepted.toNat ++ four st.delivered.toNat ++ four st.discarded.toNat ++ four st.rejected.toNat ++
    two st.underruns ++
    [num ((s.sinkEntry (.storeIn n)).holder.getD 0),
     num (s.routes.countP fun r => r.source == .storeOut n && r.state.holds),
     num (64 - (s.stores.q0.capacity + s.stores.q1.capacity + s.stores.q2.capacity + s.stores.q3.capacity))]

/-- A domain's rate code, state, measured rate and holdover time left. -/
def domainNow (s : State) (d : Domain) : Nat × Nat × Nat × Nat :=
  let int := fun (x : IntDomain) => (rate x.rateCode,
    (match x.state with
      | .off => 0 | .locking => 2 | .locked => 3), 0, 0)
  match d with
  | .fa => int s.fa
  | .fb => int s.fb
  | .fx => (bit s.fx.external 6,
    match s.fx.state with
    | .off => (0, 0, 0)
    | .seeking => (1, 0, 0)
    | .locking m => (2, rate (some m), 0)
    | .locked m => (3, rate (some m), 0)
    | .holdover m n => (4, rate (some m), ms n))

/-- The domain report of R160; a domain runs in states 3 and 4. -/
def domainReport (s : State) (d : Domain) : List Byte :=
  let (code, st, measured, left) := domainNow s d
  [num (domain d), num code, num st, num (bit (decide (3 ≤ st)) 1), num measured] ++ two left ++ four (s.frameCount d).toNat ++
    [num (s.routes.countP fun r => r.domain == d && r.state.holds),
     num (s.routes.countP fun r => r.domain == d && !r.state.holds)]

/-- The endpoint descriptor of R160. -/
def descriptor (s : State) (e : Endpoint) : List Byte :=
  let lanePart := fun (l : LaneId) =>
    [num (lane l), num (bit (s.lane l).enabled 1), num (domain (s.lane l).binding), num (laneState (s.lane l).state)]
  let storePart := fun (n : Idx) => [num n.toNat, num (s.store n).capacity, num (binding (s.store n).binding), 255#8]
  let held := fun (t : Sink) => [num ((s.sinkEntry t).holder.getD 0), num (s.claim t).length]
  let tag := [(s.tagOf e).q0, (s.tagOf e).q1, (s.tagOf e).q2, (s.tagOf e).q3]
  match e with
  | .source (.input l k) =>
    [num (4 * l.toNat + k.toNat), 0#8] ++ tag ++
      [num (s.sourceEntry (.input l k)).fanOut, num (bit ((s.lane (.input l)).state == .running) 1)] ++ lanePart (.input l)
  | .sink (.output l k) => [num (16 + 4 * l.toNat + k.toNat), 1#8] ++ tag ++ held (.output l k) ++ lanePart (.output l)
  | .sink (.storeIn n) => [num (32 + n.toNat), 2#8] ++ tag ++ held (.storeIn n) ++ storePart n
  | .source (.storeOut n) =>
    [num (36 + n.toNat), 3#8] ++ tag ++ [num (s.sourceEntry (.storeOut n)).fanOut, 1#8] ++ storePart n

end Layout

end Sys2Proof.Machine
end

