-- ==== Sys2Proof/Certificates/Slice0/Obligations.lean ====
section
/-! DEFINITION. The statements for the provers. Every statement about a command that is taken concludes with the whole next
state, so that what it leaves unchanged is said as well; where it concludes with a state `t` and clauses about it, the
clauses say what is kept. -/

section

open Sys2Proof Sys2Proof.Machine

/-! ### The machine -/

/-- The command at the front of the queue is the one a step takes, on the state with the queue's rest. On an empty queue
one period of XREF passes (the model's choice, log entries 3 and 24): unless RESET is asserted, every wait timer and the
holdover count fall by one, the WAIT_TIMEOUT of each route whose timer then stands at 0, and HOLDOVER_EXPIRED when the
holdover does, are put into the queue, and nothing else changes. -/
def Obligations.StepTakesFrontCommand : Prop :=
  (∀ (c : Instr) (rest : List Instr) (s : State), s.pending = c :: rest → step s = exec c { s with pending := rest }) ∧
  (∀ s : State, s.pending = [] → s.resetHeld = true → step s = .next s) ∧
  (∀ s : State, s.pending = [] → s.resetHeld = false →
    let due := s.routes.filter fun r => match r.state with
      | .waiting (some n) => decide (n ≤ 1)
      | _ => false
    let holdoverOver := match s.fx.state with
      | .holdover _ n => decide (n ≤ 1)
      | _ => false
    step s = .next
      { s with
        pending := due.map (fun r => .waitTimeout r.id) ++ (if holdoverOver then [.holdoverExpired] else [])
        routes := s.routes.map fun r => match r.state with
          | .waiting (some n) => { r with state := .waiting (some (n - 1)) }
          | _ => r
        fx := match s.fx.state with
          | .holdover m n => { s.fx with state := .holdover m (n - 1) }
          | _ => s.fx })

/-- No command ends in a fault or a refusal. None, DEVICE_RESET included, touches the queue of the commands that wait, which is
the model's own: the model's choice (log entries 10 and 24). -/
def Obligations.EveryCommandAnswersNext : Prop :=
  ∀ (c : Instr) (s : State), ∃ t, exec c s = .next t ∧ t.pending = s.pending

/-- What device reset leaves, chapter by chapter: the ports (R145, R147), the sessions (R121), the queues (R136), the Route
Table and the claim queues (R2, R26), the directory with its default tags (R86), the lanes (R91), the domains and the monitor
(R67, R73), the channels (R65) and the stores (R103); and the state after reset is sound in every sense the invariants have.
SDOn is at high impedance. That RESET is released, that no command waits, that CSn is high, and the fields the manual does not
name as records (`resetWaiting`, `sent`, `transfer`, `reportDue`, the report lists, `syncPhase`, `wires`) are the model's
(log entries 2, 10, 20, 26). -/
def Obligations.ResetStateIsSound : Prop :=
  let s := State.reset
  (s.resetHeld = false ∧ s.pending = [] ∧ s.routes = [] ∧ s.routeReports = [] ∧ s.laneReports = [] ∧
    (∀ p ∈ allPorts,
      s.port p =
        { link := .idle, csLow := false, transfer := none, holder := .empty, resetWaiting := false, sent := [],
          stray := (s.port p).stray } ∧
      s.sdo p = none ∧
      s.session p = { isOpen := false, epoch := 0, owned := 0 } ∧ s.queue p = { entries := [], nextSeq := 0 } ∧
      s.attention p = false) ∧
    (∀ t ∈ allSinks, s.claim t = [] ∧ (s.sinkEntry t).holder = none) ∧
    (∀ e ∈ allSources, (s.sourceEntry e).fanOut = 0) ∧
    (∀ n ∈ List.range 40, ∀ e ∈ endpoint? n,
      let x := if n < 16 then (73, 78, n) else if n < 32 then (79, 85, n - 16) else if n < 36 then (83, 73, n - 32)
        else (83, 79, n - 36)
      (s.tagOf e).toList = [byteOf x.1, byteOf x.2.1, byteOf (48 + x.2.2 / 10), byteOf (48 + x.2.2 % 10)]) ∧
    (∀ l ∈ allLanes, s.lane l =
      { enabled := false, binding := .fa, state := .disabled, goodRun := 0, badRun := 0, syncPhase := none, wires := .low }) ∧
    s.fa = { rateCode := some .r48000, state := .locking, frameCount := 0 } ∧
    s.fb = { rateCode := some .r44100, state := .locking, frameCount := 0 } ∧
    s.fx = { external := false, state := .off, frameCount := 0 } ∧ s.monitor = { clock := none, reportDue := false } ∧
    (∀ d ∈ allDomains, s.running d = false) ∧
    (∀ l ∈ Idx.all, ∀ k ∈ Idx.all, s.channel l k = { trim := 0, peak := 0, clips := 0 }) ∧
    (∀ n ∈ Idx.all, s.store n =
      { capacity := 0, keepNew := false, lowMark := 0, highMark := 0, writePos := 0, readPos := 0, ring := [],
        binding := none, underrunEp := false, overrunEp := false, aboveLow := false, atHigh := false, accepted := 0,
        delivered := 0, discarded := 0, rejected := 0, underruns := 0 }) ∧
    s.freeBlocks = 64) ∧
  PortsSound s ∧ QueuesSound s ∧ RoutesOrdered s ∧ RoutesInRange s ∧ TimeoutsQueued s ∧ OrphansHold s ∧ OwnedCounted s ∧
  EpochsCurrent s ∧ SinksSound s ∧ LanesSound s ∧ ChannelsSound s ∧ LanesBound s ∧ StoresBound s ∧ StoresSound s ∧
  ClocksSound s ∧ CausesAgree s

/-! ### Invariants every step keeps -/

/-- Ports and event queues: a close waits only for an executing command, a port held in reset holds no response, and the link is
COMMAND or FETCH exactly while a transaction is past its first byte, and the holder found by that byte is kept in FETCH alone; a
queue has at most 32 entries, a LOST marker only at the tail and sequence numbers without a gap, and is empty while its session is
closed. Every step keeps this, and so does everything the master does at the wires of a port. -/
def Obligations.PortsAndQueuesSoundKept : Prop :=
  (∀ s t : State, PortsSound s → QueuesSound s → step s = .next t → PortsSound t ∧ QueuesSound t) ∧
  (∀ (s : State) (p : Port) (w : Wire), PortsSound s → QueuesSound s → PortsSound (s.wire p w) ∧ QueuesSound (s.wire p w))

/-- Route records: ids distinct, ascending and from 1 to 48; gains up to 120, gain 0 while the route does not sound, the ramp
count below the step interval, wait times up to 60000 ms. A timer stands at 0 only until its WAIT_TIMEOUT, or
HOLDOVER_EXPIRED, which waits in the queue, is taken (log entries 3 and 4). -/
def Obligations.RouteRecordsSoundKept : Prop :=
  ∀ s t : State, RoutesOrdered s → RoutesInRange s → TimeoutsQueued s → step s = .next t →
    RoutesOrdered t ∧ RoutesInRange t ∧ TimeoutsQueued t

/-- Sessions and owners: owned counts agree with the Route Table and stay within 24, owned routes carry their session's
epoch, orphans hold their sinks. The claim queues are sound beside them, so that no grant reaches an orphan. -/
def Obligations.OwnersSoundKept : Prop :=
  ∀ s t : State, RoutesOrdered s → SinksSound s → OwnedCounted s → EpochsCurrent s → OrphansHold s → step s = .next t →
    OwnedCounted t ∧ EpochsCurrent t ∧ OrphansHold t

/-- Sinks: one holder at most, named by the directory; claim queues hold exactly the waiting routes, at most four, by
priority; fan-outs count the holders fed. -/
def Obligations.SinksSoundKept : Prop :=
  ∀ s t : State, RoutesOrdered s → SinksSound s → step s = .next t → SinksSound t

/-- Lane records and output channels stay in the forms chapters 3 and 5 give them. -/
def Obligations.LanesAndChannelsKept : Prop :=
  ∀ s t : State, LanesSound s → ChannelsSound s → step s = .next t → LanesSound t ∧ ChannelsSound t

/-- A route's domain stays the domain of its endpoints: its lanes stay enabled and bound to it, its stores configured and
bound to it, and a store no route uses is unbound. -/
def Obligations.EndpointsBoundKept : Prop :=
  ∀ s t : State, RoutesOrdered s → LanesBound s → StoresBound s → step s = .next t → LanesBound t ∧ StoresBound t

/-- Store records: the fill stays within the ring and agrees with the positions and the totals, the sides of the marks
follow it, the capacities stay within 64 blocks. -/
def Obligations.StoresSoundKept : Prop :=
  ∀ s t : State, RoutesOrdered s → StoresBound s → StoresSound s → step s = .next t → StoresSound t

/-- Clock domains: rate code, state, measured rate, holdover time and the word-clock monitor stay in agreement. -/
def Obligations.ClocksSoundKept : Prop :=
  ∀ s t : State, ClocksSound s → step s = .next t → ClocksSound t

/-- Once every report about a domain or a lane has been taken, a holder has the cause DOMAIN_DOWN exactly while its domain
does not run and SOURCE_DOWN exactly while its source is down; so no route sounds on a stopped domain or a source that is
down. -/
def Obligations.CausesAgreeKept : Prop :=
  ∀ s t : State, RoutesOrdered s → CausesAgree s → step s = .next t → CausesAgree t

/-! ### The host port link -/

/-- The bytes of every command that is a transaction decode to that command, on its own port. On the wires (R145): clocked most
significant bit first between the edges of CSn, with up to seven bits left over and nothing happening in between, they put the
link into FETCH or COMMAND by their first byte, and at the end the part is as the command leaves it, with the link IDLE. A
transaction of fewer than eight bits is ignored and changes nothing. -/
def Obligations.DecodeReadsEncodedTransaction : Prop :=
  (∀ (c : Instr) (p : Port) (bytes : List Byte), c.wf = true → portOf? c = some p → encodeTransaction c = some bytes →
    decodeTransaction p bytes = some c ∧
    ∀ (s : State) (extra : List Bool), extra.length < 8 → s.takes p = true → (s.port p).link = .idle →
      (s.port p).csLow = false → (s.port p).transfer = none →
      let clocked :=
        (bitsOfBytes bytes ++ extra).foldl (fun x b => (x.wire p (.sckRise b)).wire p .sckFall) (s.wire p .csFall)
      (clocked.port p).link = (if bytes.head? = some 0#8 then .fetch else .command) ∧
      exec c s = .next (clocked.wire p .csRise)) ∧
  (∀ (s : State) (p : Port) (extra : List Bool), extra.length < 8 → s.takes p = true → (s.port p).link = .idle →
    (s.port p).csLow = false → (s.port p).transfer = none →
    (extra.foldl (fun x b => (x.wire p (.sckRise b)).wire p .sckFall) (s.wire p .csFall)).wire p .csRise = s)

/-- The frame check of R146, as its four conditions. -/
def Obligations.FrameGoodIffFourConditions : Prop :=
  ∀ bs : List Byte, frameGood bs = true ↔
    4 ≤ bs.length ∧ (bs.getD 2 0#8).toNat ≤ 250 ∧ bs.length = 4 + (bs.getD 2 0#8).toNat ∧
      bs.getLast? = some (crc8 bs.dropLast)

/-- Over a record with its own CRC appended the CRC is 0, and a run of bytes with one byte changed has another CRC, so a
good frame in which one byte other than its length is damaged is good no longer. -/
def Obligations.CrcCatchesOneDamagedByte : Prop :=
  (∀ bs : List Byte, crc8 (bs ++ [crc8 bs]) = 0#8) ∧
  (∀ (pre post : List Byte) (b b' : Byte), b ≠ b' → crc8 (pre ++ b :: post) ≠ crc8 (pre ++ b' :: post)) ∧
  (∀ (pre post : List Byte) (b b' : Byte), b ≠ b' → pre.length ≠ 2 → frameGood (pre ++ b :: post) = true →
    frameGood (pre ++ b' :: post) = false)

/-- FETCH by the state of the holder (R148): the answer stands on SDOn byte by byte for as long as the master clocks, and 0xFF
after its end; READY becomes FETCHED, and nothing else moves. On the wires, bit by bit: the first byte 0x00 makes the transaction
a FETCH and fixes the answer by the holder as it stands then; nothing but a reset touches the transaction, so a command that
completes after that byte is answered BUSY and left READY at the end; SDOn changes on falling edges of SCKn alone, carries 1 in
each bit of a command frame and of the first byte (that of a FETCH: log entry 2), then the answer, most significant bit first, and
is at high impedance while CSn is high and while the port takes no transaction. -/
def Obligations.FetchAnswersFromHolder : Prop :=
  let record := fun (marker : Byte) (r : Response) =>
    let body := [marker, r.seq, BitVec.ofNat 8 r.result.code, BitVec.ofNat 8 r.payload.length] ++ r.payload
    body ++ [crc8 body]
  let answer := fun (h : Holder) => match h with
    | .empty => [0xA0#8]
    | .executing _ => [0xA1#8]
    | .ready r => record 0xA5#8 r
    | .fetched r => record 0xA6#8 r
  let drive := fun (h : Holder) (n : Nat) => (answer h ++ List.replicate n 0xFF#8).take n
  (∀ (s : State) (p : Port) (n : Nat), s.takes p = true →
    let u := s.port p
    let after := match u.holder with
      | .empty | .executing _ | .fetched _ => { u with sent := drive u.holder n }
      | .ready r => { u with holder := .fetched r, sent := drive u.holder n }
    exec (.fetch p n) s = .next { s with ports := s.ports.set p after }) ∧
  (∀ (s : State) (p : Port) (x : Transfer) (b : Bool), (s.port p).transfer = some x → x.bits.length = 7 →
    (∀ a ∈ x.bits ++ [b], a = false) →
    s.wire p (.sckRise b) =
      { s with
        ports := s.ports.set p
          { s.ports.get p with
            link := .fetch
            transfer := some { bits := x.bits ++ [b], fetched := some (s.port p).holder, outBit := x.outBit } } }) ∧
  (∀ (c : Instr) (s t : State) (p : Port), exec c s = .next t → c ≠ .portReset p → c ≠ .deviceReset →
    (t.port p).transfer = (s.port p).transfer ∧ (t.port p).csLow = (s.port p).csLow) ∧
  (∀ (s : State) (p : Port) (x : Transfer) (h : Holder), (s.port p).transfer = some x → x.fetched = some h →
    let u := s.port p
    s.wire p .csRise =
      { s with
        ports := s.ports.set p
          { u with
            link := .idle, csLow := false, transfer := none
            holder := match h, u.holder with
              | .ready _, .ready r => .fetched r
              | _, now => now
            sent := drive h (x.bits.length / 8 - 1) } }) ∧
  (∀ (s : State) (p : Port) (x : Transfer), s.takes p = true → (s.port p).csLow = true → (s.port p).transfer = some x →
    (x.fetched = none ∨ x.bits.length < 8 → (s.wire p .sckFall).sdo p = some true) ∧
    (∀ h n k, x.fetched = some h → x.bits.length = 8 + 8 * n + k → k < 8 →
      (s.wire p .sckFall).sdo p = some (((answer h).getD n 0xFF#8).getLsbD (7 - k))) ∧
    (PortSound (s.port p) → ∀ b, (s.wire p (.sckRise b)).sdo p = s.sdo p)) ∧
  (∀ (s : State) (p : Port), (s.port p).csLow = false ∨ s.takes p = false → s.sdo p = none)

/-- A frame that is not good is answered FRAME_ERROR at once, with its second byte, or 0, as the sequence byte; a good frame
whose code names no command is answered UNKNOWN_COMMAND. Neither changes anything but its port. -/
def Obligations.BadFramesAnswered : Prop :=
  (∀ (s : State) (p : Port) (bytes : List Byte), s.ready p = true → isCommandFrame bytes = true → frameGood bytes = false →
    exec (.frameError p bytes) s = .next
      { s with
        ports := s.ports.set p
          { s.ports.get p with
            holder := .ready { seq := bytes.getD 1 0#8, result := .frameError, payload := [] }
            sent := List.replicate bytes.length 0xFF#8 } }) ∧
  (∀ (s : State) (p : Port) (code seq : Byte) (ps : List Byte), s.ready p = true → code ≠ 0#8 → 24 < code.toNat →
    exec (.unknownCommand p code seq ps) s = .next (s.replied p seq .unknownCommand [] (4 + ps.length)))

/-- A frame whose transaction ends while the holder is EXECUTING leaves everything but the wires, and so does one that is
named a discarded frame; a port in reset, or the part in RESET, does not see its transactions at all. -/
def Obligations.FramesNotTakenChangeNothing : Prop :=
  (∀ (s : State) (p : Port), s.takes p = true → (s.port p).resetWaiting = false → (s.port p).holder.busy = true →
    let driven := fun (n : Nat) =>
      ({ s with ports := s.ports.set p { s.ports.get p with sent := List.replicate n 0xFF#8 } } : State)
    (∀ c code seq ps, hostFrame? c = some (p, code, seq, ps) → exec c s = .next (driven (4 + ps.length))) ∧
    (∀ bytes, isCommandFrame bytes = true → frameGood bytes = false →
      exec (.frameError p bytes) s = .next (driven bytes.length)) ∧
    (∀ code seq ps, code ≠ 0#8 → knownCode code = false →
      exec (.unknownCommand p code seq ps) s = .next (driven (4 + ps.length))) ∧
    (∀ bytes, isCommandFrame bytes = true → exec (.frameDiscarded p bytes) s = .next (driven bytes.length))) ∧
  (∀ (s : State) (p : Port), s.takes p = false →
    (∀ c code seq ps, hostFrame? c = some (p, code, seq, ps) → exec c s = .next s) ∧
    (∀ n, exec (.fetch p n) s = .next s) ∧
    (∀ bytes, exec (.frameError p bytes) s = .next s ∧ exec (.frameDiscarded p bytes) s = .next s) ∧
    (∀ code seq ps, exec (.unknownCommand p code seq ps) s = .next s))

/-- Checks 3 and 4 of R150: a length the command does not accept is answered BAD_LENGTH; then a closed session, for every
command but OPEN_SESSION, is answered NO_SESSION. On a port released from its reset while the close still waits for an
executing command (R131, R153; log entry 13), the close is taken before any frame is judged: each frame then does what it
does after the completion, on a ready port with its session CLOSED. -/
def Obligations.CommonChecksInOrder : Prop :=
  (∀ (c : Instr) (s : State) (p : Port) (code seq : Byte) (ps : List Byte),
    hostFrame? c = some (p, code, seq, ps) → s.ready p = true → ps.length ≤ 250 →
    (lengthOk code ps = false → exec c s = .next (s.replied p seq .badLength [] (4 + ps.length))) ∧
    (lengthOk code ps = true → code ≠ 0x01#8 → (s.session p).isOpen = false →
      exec c s = .next (s.replied p seq .noSession [] (4 + ps.length)))) ∧
  (∀ (s : State) (p : Port), s.takes p = true → (s.port p).resetWaiting = true → (s.port p).holder.busy = true →
    ∃ t, exec (.commandCompletes p) s = .next t ∧ t.ready p = true ∧ (t.session p).isOpen = false ∧
      (∀ c code seq ps, hostFrame? c = some (p, code, seq, ps) → exec c s = exec c t) ∧
      (∀ bytes, isCommandFrame bytes = true → frameGood bytes = false →
        exec (.frameError p bytes) s = exec (.frameError p bytes) t) ∧
      (∀ code seq ps, code ≠ 0#8 → knownCode code = false →
        exec (.unknownCommand p code seq ps) s = exec (.unknownCommand p code seq ps) t))

/-- A host command that is taken is answered with its own sequence byte, and when its result is not OK the response has no
payload and nothing in the part but the port has changed. -/
def Obligations.RefusedCommandChangesNothing : Prop :=
  ∀ (c : Instr) (s : State) (p : Port) (code seq : Byte) (ps : List Byte),
    hostFrame? c = some (p, code, seq, ps) → s.ready p = true →
    ∃ (t : State) (r : Response), exec c s = .next t ∧ (t.port p).holder = .executing r ∧ r.seq = seq ∧
      (r.result ≠ .ok → t = s.replied p seq r.result [] (4 + ps.length))

/-- COMMAND_COMPLETES: the response becomes READY and asserts the attention line; when PRSTn was asserted meanwhile, the
response is lost and the effects of the port reset are taken: an open session closes as R126 says, each of its routes by Table 7.2
and every other kept, every other open port is told ROUTE_ORPHANED of each orphan, and the holder is EMPTY with the attention line
deasserted; without an executing command there is nothing to complete, and nothing changes (a blank cell of Table 9.1: the model's
choice, log entry 5). The attention line is asserted, its pin low, by a READY response, or by an event queue of an open session
that is not empty. -/
def Obligations.CommandCompletes : Prop :=
  (∀ (s : State) (p : Port) (r : Response), (s.port p).holder = .executing r → (s.port p).resetWaiting = false →
    ∃ t, exec (.commandCompletes p) s = .next t ∧
      t = { s with ports := s.ports.set p { s.ports.get p with holder := .ready r } } ∧ t.attention p = true) ∧
  (∀ (s : State) (p : Port) (r : Response), (s.port p).holder = .executing r → (s.port p).resetWaiting = true →
    let emptied := { s.port p with holder := .empty, resetWaiting := false, sent := [] }
    ((s.session p).isOpen = false →
      ∃ t, exec (.commandCompletes p) s = .next t ∧ t = { s with ports := s.ports.set p emptied } ∧ t.attention p = false) ∧
    ((s.session p).isOpen = true → RoutesOrdered s →
      ∃ t, exec (.commandCompletes p) s = .next t ∧ t.port p = emptied ∧ SessionCloses s p t ∧ t.attention p = false)) ∧
  (∀ (s : State) (p : Port), (s.port p).holder.busy = false → exec (.commandCompletes p) s = .next s) ∧
  (∀ (s : State) (p : Port),
    (s.attention p = true ↔
      ((s.session p).isOpen = true ∧ (s.queue p).entries ≠ []) ∨ ∃ r, (s.port p).holder = .ready r) ∧
    (s.attnLevel p = false ↔ s.attention p = true))

/-- PORT_RESET and PORT_RESET_RELEASE (R130, R153): a transaction in progress ends and SDOn is at high impedance; while a command
executes, the effects wait; with a closed session the holder is emptied; with an open one the session closes as R126 says, each
route by Table 7.2, and every other open port is told ROUTE_ORPHANED of each orphan in ascending order of id, and nothing else.
The release returns the link to IDLE and changes nothing else. `sent` and `stray` are the model's own (log entries 2, 26). -/
def Obligations.PortResetClosesSession : Prop :=
  (∀ (s : State) (p : Port),
    let held := { s.port p with link := .held, transfer := none, sent := [], stray := (s.port p).stray + 1 }
    let emptied := { held with holder := .empty, resetWaiting := false }
    ((s.port p).holder.busy = true →
      exec (.portReset p) s = .next { s with ports := s.ports.set p { held with resetWaiting := true } }) ∧
    ((s.port p).holder.busy = false → (s.session p).isOpen = false →
      exec (.portReset p) s = .next { s with ports := s.ports.set p emptied }) ∧
    ((s.port p).holder.busy = false → (s.session p).isOpen = true → RoutesOrdered s →
      ∃ t, exec (.portReset p) s = .next t ∧ t.port p = emptied ∧ SessionCloses s p t ∧ t.attention p = false) ∧
    (∀ t, exec (.portReset p) s = .next t → t.sdo p = none)) ∧
  (∀ (s : State) (p : Port), (s.port p).link = .held →
    exec (.portResetRelease p) s = .next { s with ports := s.ports.set p { s.ports.get p with link := .idle } })

/-- DEVICE_RESET and RESET_RELEASE (R154): every record takes its device-reset value, a port whose PRSTn is asserted stays
HELD, every SDO wire is at high impedance, and RESET is held until its release. The queue of waiting commands and the counts of
free values are the model's own and are kept or counted on, and the level at CSn is the master's (log entries 11, 24, 26). -/
def Obligations.DeviceResetRestoresRecords : Prop :=
  (∀ s : State, ∃ t, exec .deviceReset s = .next t ∧ (∀ p, t.sdo p = none ∧ t.attention p = false) ∧ t =
    { State.reset with
      pending := s.pending
      resetHeld := true
      ports := .tab fun p =>
        { link := if (s.port p).link = .held then .held else .idle, csLow := (s.port p).csLow, transfer := none,
          holder := .empty, resetWaiting := false, sent := [], stray := (s.port p).stray + 1 }
      freeDraws := s.freeDraws }) ∧
  (∀ s : State, exec .resetRelease s = .next { s with resetHeld := false })

/-- A transaction, a completion or a reset of one port leaves the link, the holder, the wires, the session state and the
epoch of every other port as they were. -/
def Obligations.PortsAreIndependent : Prop :=
  ∀ (c : Instr) (s t : State) (p q : Port), portOf? c = some p → q ≠ p → exec c s = .next t →
    t.port q = s.port q ∧ (t.session q).isOpen = (s.session q).isOpen ∧ (t.session q).epoch = (s.session q).epoch

/-! ### Sessions and ownership -/

/-- OPEN_SESSION (R124): the session opens, the epoch steps, the next event sequence number is 0; an open session refuses
it. -/
def Obligations.OpenSessionOpens : Prop :=
  (∀ (s : State) (p : Port) (seq : Byte), s.ready p = true → (s.session p).isOpen = false →
    exec (.openSession p seq []) s = .next
      (({ s with
          sessions := s.sessions.set p
            { isOpen := true, epoch := (s.session p).epoch + 1, owned := (s.session p).owned }
          queues := s.queues.set p { entries := (s.queue p).entries, nextSeq := 0 } } : State).replied p seq .ok
        [byteOf (Port.code p), (s.session p).epoch + 1, byteOf s.orphanCount] 4)) ∧
  (∀ (s : State) (p : Port) (seq : Byte), s.serving p = true →
    exec (.openSession p seq []) s = .next (s.replied p seq .sessionOpen [] 4))

/-- CLOSE_SESSION (R125 to R128): the session is CLOSED with owned count 0 and its epoch kept, its queue is emptied, every
route of the port is treated as Table 7.2 says and every other route is kept; the response counts the routes released, wound
down and orphaned, and those left; every other open port is told ROUTE_ORPHANED of each orphan in ascending order of id, with
its pending outcome in RAMP_DOWN, the port and the owner epoch, and nothing else. -/
def Obligations.CloseSessionTreatsRoutes : Prop :=
  ∀ (s : State) (p : Port) (seq : Byte), s.serving p = true → RoutesOrdered s →
    let mine := s.routes.filter fun r => r.owner == some p
    let count := fun (f : Option Route → Bool) => (mine.map closedRoute).countP f
    ∃ t, exec (.closeSession p seq []) s = .next t ∧ SessionCloses s p t ∧
      (t.port p).holder = .executing
        { seq := seq, result := .ok,
          payload :=
            [byteOf (count fun o => o.isNone), byteOf (count fun o => o.any fun r => !r.flags.persist),
             byteOf (count fun o => o.any fun r => r.flags.persist), byteOf t.routes.length] }

/-- ADOPT of an orphan below the quota (R133): only the owner and the owner epoch of the route change, so that it has no former
owner any more, the owned count rises, and every other open port is told. Its refusals, in order: BAD_ARGUMENT and NO_SUCH_ROUTE
(R18), NOT_ORPHAN for a route with an owner, QUOTA_EXCEEDED. -/
def Obligations.AdoptTakesOrphan : Prop :=
  ∀ (s : State) (p : Port) (seq b : Byte), s.serving p = true →
    let id := b.toNat
    let refused := fun (res : Result) => exec (.adopt p seq [b]) s = .next (s.replied p seq res [] 5)
    (id = 0 ∨ 48 < id → refused .badArgument) ∧
    (1 ≤ id → id ≤ 48 →
      (s.route? id = none → refused .noSuchRoute) ∧
      (∀ r, s.route? id = some r →
        (r.owner = none → (s.session p).owned < 24 →
          exec (.adopt p seq [b]) s = .next
            ((({ s with
                routes := s.routes.map fun x =>
                  if x.id = r.id then { r with owner := some p, former := none, epoch := (s.session p).epoch } else x
                sessions := s.sessions.set p
                  { isOpen := true, epoch := (s.session p).epoch, owned := (s.session p).owned + 1 } } : State).post
                [{ aud := .everyOpenBut p, ev := .routeAdopted r.id r.sink r.domain p (s.session p).epoch }]).replied
              p seq .ok
              [byteOf r.id, byteOf r.state.code, byteOf (Sink.wire r.sink), byteOf (Domain.code r.domain),
               (s.session p).epoch, byteOf ((s.session p).owned + 1)] 5)) ∧
        (r.owner = none → 24 ≤ (s.session p).owned → refused .quotaExceeded) ∧
        (r.owner ≠ none → refused .notOrphan)))

/-! ### Queries -/

/-- The eight commands that only ask: each answers its report, or its first refusal (R24, R25, R47, R84, R88, R90, R117, R140), and
leaves every record but its port's as it was. -/
def Obligations.QueriesAnswerAndChangeNothing : Prop :=
  ∀ (s : State) (p : Port) (seq b : Byte), s.serving p = true →
    (∀ e, endpoint? b.toNat = some e →
      exec (.describeEndpoint p seq [b]) s = .next (s.replied p seq .ok (s.endpointReport e) 5)) ∧
    (∀ (c1 c2 c3 c4 : Byte) (e : Endpoint) (es : List Endpoint), tagPrintable ⟨c1, c2, c3, c4⟩ = true →
      (allEndpoints.filter fun x => s.tagOf x == ⟨c1, c2, c3, c4⟩) = e :: es →
      exec (.findTag p seq [c1, c2, c3, c4]) s = .next
        (s.replied p seq .ok [byteOf (Endpoint.wire e), byteOf (es.length + 1)] 8)) ∧
    (∀ d, domain? b = some d →
      exec (.queryDomain p seq [b]) s = .next (s.replied p seq .ok (s.domainReport d) 5)) ∧
    (∀ r, 1 ≤ b.toNat → b.toNat ≤ 48 → s.route? b.toNat = some r →
      exec (.queryRoute p seq [b]) s = .next (s.replied p seq .ok (s.routeReport r) 5)) ∧
    (∀ (kind : Byte) (f : Route → Bool),
      (∃ t, endpoint? b.toNat = some (.sink t) ∧ kind = 1#8 ∧ f = fun r => r.sink == t) ∨
      (∃ e, endpoint? b.toNat = some (.source e) ∧ kind = 2#8 ∧ f = fun r => r.source == e) ∨
      (∃ o, owner? b = some o ∧ kind = 3#8 ∧ f = fun r => r.owner == o) →
      exec (.listRoutes p seq [kind, b]) s = .next
        (s.replied p seq .ok ([kind, b, byteOf (s.routes.filter f).length] ++ routePairs (s.routes.filter f)) 6)) ∧
    (∀ t, endpoint? b.toNat = some (.sink t) →
      exec (.querySink p seq [b]) s = .next (s.replied p seq .ok (s.sinkReport t) 5)) ∧
    (∀ n, store? b = some n →
      exec (.queryStore p seq [b]) s = .next (s.replied p seq .ok (s.storeReport n) 5)) ∧
    (1 ≤ b.toNat → b.toNat ≤ 16 →
      exec (.readEvents p seq [b]) s = .next
        (s.replied p seq .ok
          (byteOf (s.queue p).entries.length :: ((s.queue p).entries.take b.toNat).flatMap Entry.bytes) 5)) ∧
    let refused := fun (c : Instr) (res : Result) (n : Nat) => exec c s = .next (s.replied p seq res [] n)
    let wire := b.toNat
    let isSource := wire ≤ 15 ∨ 36 ≤ wire ∧ wire ≤ 39
    let isSink := 16 ≤ wire ∧ wire ≤ 35
    (39 < wire → refused (.describeEndpoint p seq [b]) .noSuchEndpoint 5) ∧
    (∀ c1 c2 c3 c4 : Byte,
      ((∃ c ∈ [c1, c2, c3, c4], c.toNat < 0x20 ∨ 0x7E < c.toNat) →
        refused (.findTag p seq [c1, c2, c3, c4]) .badArgument 8) ∧
      ((∀ c ∈ [c1, c2, c3, c4], 0x20 ≤ c.toNat ∧ c.toNat ≤ 0x7E) → (∀ e, s.tagOf e ≠ ⟨c1, c2, c3, c4⟩) →
        refused (.findTag p seq [c1, c2, c3, c4]) .noSuchEndpoint 8)) ∧
    (2 < b.toNat → refused (.queryDomain p seq [b]) .badArgument 5) ∧
    (b = 0#8 ∨ 48 < b.toNat → refused (.queryRoute p seq [b]) .badArgument 5) ∧
    (1 ≤ b.toNat → b.toNat ≤ 48 → s.route? b.toNat = none → refused (.queryRoute p seq [b]) .noSuchRoute 5) ∧
    (∀ kind : Byte, kind = 0#8 ∨ 3 < kind.toNat → refused (.listRoutes p seq [kind, b]) .badArgument 6) ∧
    (39 < wire → refused (.listRoutes p seq [1#8, b]) .noSuchEndpoint 6 ∧
      refused (.listRoutes p seq [2#8, b]) .noSuchEndpoint 6) ∧
    (isSource → refused (.listRoutes p seq [1#8, b]) .notASink 6) ∧
    (isSink → refused (.listRoutes p seq [2#8, b]) .notASource 6) ∧
    (2 < b.toNat → b ≠ 0xFF#8 → refused (.listRoutes p seq [3#8, b]) .badArgument 6) ∧
    (39 < wire → refused (.querySink p seq [b]) .noSuchEndpoint 5) ∧
    (isSource → refused (.querySink p seq [b]) .notASink 5) ∧
    (3 < b.toNat → refused (.queryStore p seq [b]) .badArgument 5) ∧
    (b = 0#8 ∨ 16 < b.toNat → refused (.readEvents p seq [b]) .badArgument 5)

/-- The five query reports (R160, Tables 10.8 to 10.10) and the event record (R162, Tables 10.11 and 10.12) are those written out
byte by byte, with the numbers of Table 10.3, in `Layout`, and have their lengths in every state. The place of a waiting route
counts from the head of its claim queue; the waiters of a sink are given head first. The owner byte of an orphan's route report is
NONE, as R24 and R132 say (R128 and R131 speak of its former port: log entry 25). -/
def Obligations.ReportsAreLaidOut : Prop :=
  (∀ (s : State) (r : Route), ∃ place, s.routeReport r = Layout.routeReport r place ∧
    (r.state.holds = true → place = 0) ∧
    ∀ front back, r.state.holds = false → s.claim r.sink = front ++ r.id :: back → r.id ∉ front →
      place = front.length + 1) ∧
  (∀ (s : State) (t : Sink) (ws : List Route), s.claim t = ws.map (·.id) → (∀ w ∈ ws, s.route? w.id = some w) →
    ws.length ≤ 4 →
    ((s.sinkEntry t).holder = none → s.sinkReport t = Layout.sinkReport s t none ws) ∧
    (∀ h, (s.sinkEntry t).holder = some h.id → s.route? h.id = some h →
      s.sinkReport t = Layout.sinkReport s t (some h) ws)) ∧
  (∀ (s : State) (n : Idx), s.storeReport n = Layout.storeReport s n) ∧
  (∀ (s : State) (d : Domain), s.domainReport d = Layout.domainReport s d) ∧
  (∀ (s : State) (e : Endpoint), s.endpointReport e = Layout.descriptor s e) ∧
  (∀ (n : BitVec 16) (ev : Event), ({ seq := n, ev := ev } : Entry).bytes = Layout.eventRecord n ev) ∧
  (∀ (s : State) (r : Route), (s.routeReport r).length = 18) ∧
  (∀ (s : State) (t : Sink), (s.sinkReport t).length = 32) ∧
  (∀ (s : State) (n : Idx), (s.storeReport n).length = 36) ∧
  (∀ (s : State) (d : Domain), (s.domainReport d).length = 13) ∧
  (∀ (s : State) (e : Endpoint), (s.endpointReport e).length = 12) ∧
  (∀ e : Entry, e.bytes.length = 14)

/-! ### Endpoints and lanes -/

/-- SET_TAG (R89): the tag, completed with spaces, is written to the one endpoint named, and every other open port is
told. It is refused NO_SUCH_ENDPOINT for a wire number above 39, and then BAD_ARGUMENT for a character outside 0x20 to 0x7E. -/
def Obligations.SetTagWritesOneTag : Prop :=
  ∀ (s : State) (p : Port) (seq b : Byte) (chars : List Byte), s.serving p = true →
    1 ≤ chars.length → chars.length ≤ 4 →
    let tag : Tag := ⟨chars.getD 0 0x20#8, chars.getD 1 0x20#8, chars.getD 2 0x20#8, chars.getD 3 0x20#8⟩
    (39 < b.toNat →
      exec (.setTag p seq (b :: chars)) s = .next (s.replied p seq .noSuchEndpoint [] (5 + chars.length))) ∧
    (b.toNat ≤ 39 → (∃ c ∈ chars, c.toNat < 0x20 ∨ 0x7E < c.toNat) →
      exec (.setTag p seq (b :: chars)) s = .next (s.replied p seq .badArgument [] (5 + chars.length))) ∧
    (∀ e, endpoint? b.toNat = some e → (∀ c ∈ chars, 0x20 ≤ c.toNat ∧ c.toNat ≤ 0x7E) →
      ∃ t : State, exec (.setTag p seq (b :: chars)) s = .next
          ((t.post [{ aud := .everyOpenBut p, ev := .tagChanged e tag }]).replied p seq .ok
            [b, tag.q0, tag.q1, tag.q2, tag.q3] (5 + chars.length)) ∧
        t.tagOf e = tag ∧ (∀ e', e' ≠ e → t.tagOf e' = s.tagOf e') ∧
        (∀ x, (t.sourceEntry x).fanOut = (s.sourceEntry x).fanOut) ∧
        (∀ x, (t.sinkEntry x).holder = (s.sinkEntry x).holder) ∧
        { t with sources := s.sources, sinks := s.sinks } = s)

/-- SET_LANE with enable yes (R99, Table 5.4, R100): enabling a disabled lane, repeating the binding of an enabled one, and
rebinding an enabled input lane or output lane that no route uses. What the wires of an output lane that is enabled or rebound
carry before the next boundary of its domain, when that runs, is a free value (log entry 11). -/
def Obligations.SetLaneEnablesAndRebinds : Prop :=
  ∀ (s : State) (p : Port) (seq lb db : Byte) (l : LaneId) (d : Domain), s.serving p = true → lane? lb = some l →
    domain? db = some d →
    let changed : Emit := { aud := .everyOpenBut p, ev := .laneChanged l d true }
    let entered := fun (st : LaneState) => ({ aud := .everyOpen, ev := .laneState l d st } : Emit)
    let unused := s.routes.any (fun r => usesLane r l) = false
    let answer := fun (t : State) (evs : List Emit) (st : LaneState) =>
      (t.post evs).replied p seq .ok [lb, 1#8, db, byteOf st.code, 0#8] 7
    ((s.lane l).enabled = false → (s.lane l).state = .disabled → ((s.lane l).binding = d ∨ unused) →
      (∀ i, l = .input i →
        exec (.setLane p seq [lb, 1#8, db]) s = .next
          (answer
            { s with
              inLanes := s.inLanes.set i
                { enabled := true, binding := d, state := .seeking, goodRun := 0, badRun := 0, syncPhase := none,
                  wires := .low } }
            [changed, entered .seeking] .seeking)) ∧
      (∀ i, l = .output i →
        exec (.setLane p seq [lb, 1#8, db]) s = .next
          (answer
            { s with
              outLanes := s.outLanes.set i
                { enabled := true, binding := d, state := .running, goodRun := 0, badRun := 0, syncPhase := none,
                  wires := if s.running d then .unframed s.freeDraws else .low }
              freeDraws := s.freeDraws + 1 }
            [changed, entered .running] .running))) ∧
    ((s.lane l).enabled = true → (s.lane l).binding = d →
      exec (.setLane p seq [lb, 1#8, db]) s = .next (answer s [changed] (s.lane l).state)) ∧
    ((s.lane l).enabled = true → (s.lane l).binding ≠ d → unused →
      ∀ i, l = .input i →
        exec (.setLane p seq [lb, 1#8, db]) s = .next
          (answer
            ({ s with
              inLanes := s.inLanes.set i
                { enabled := true, binding := d, state := .seeking, goodRun := 0, badRun := 0, syncPhase := none,
                  wires := .low }
              routeReports :=
                if (s.inLanes.get i).state = .running then s.routeReports ++ [.sourcesDown i] else s.routeReports } : State)
            [changed, entered .seeking] .seeking)) ∧
    ((s.lane l).enabled = true → (s.lane l).binding ≠ d → unused → (s.lane l).state = .running →
      ∀ i, l = .output i →
        exec (.setLane p seq [lb, 1#8, db]) s = .next
          (answer
            ({ s with
              outLanes := s.outLanes.set i
                { enabled := true, binding := d, state := .running, goodRun := 0, badRun := 0, syncPhase := none,
                  wires := if s.running d then .unframed s.freeDraws else .low }
              freeDraws := s.freeDraws + 1 } : State)
            [changed] .running))

/-- SET_LANE with enable no, when no other port's route uses the lane and, under a new binding, no route at all (R97, R98): an
enabled lane is disabled; the waiters and then the holders that use it, and no other route, are released in ascending order of id
and their owner is told; LANE_CHANGED goes to the other open ports, then LANE_STATE to every open port (R100); an input lane that
was RUNNING reports its sources down (R95). A lane already disabled takes the binding, with LANE_CHANGED alone. Another port's
route on the lane refuses it NOT_OWNER, a new binding while a route uses the lane refuses it LANE_IN_USE before that, and a lane,
an enable value or a domain that is none refuses it BAD_ARGUMENT first of all. -/
def Obligations.SetLaneDisableReleasesRoutes : Prop :=
  (∀ (s : State) (p : Port) (seq lb eb db : Byte), s.serving p = true →
    lb.toNat < 0x40 ∨ 0x47 < lb.toNat ∨ 1 < eb.toNat ∨ 2 < db.toNat →
    exec (.setLane p seq [lb, eb, db]) s = .next (s.replied p seq .badArgument [] 7)) ∧
  ∀ (s : State) (p : Port) (seq lb db : Byte) (l : LaneId) (d : Domain), s.serving p = true → lane? lb = some l →
    domain? db = some d → RoutesOrdered s → LanesSound s →
    let foreign := s.routes.any (fun r => usesLane r l && r.owner != some p && r.owner != none)
    let allowed := (s.lane l).binding = d ∨ s.routes.any (fun r => usesLane r l) = false
    let disabled : Lane :=
      { enabled := false, binding := d, state := .disabled, goodRun := 0, badRun := 0, syncPhase := none, wires := .low }
    let released := fun (holds : Bool) =>
      (s.routes.filter fun r => usesLane r l && r.state.holds == holds && r.owner == some p).map fun r =>
        Event.routeReleased r.id r.sink .endpointDisabled
    ((s.lane l).enabled = true → allowed → foreign = false →
      ∃ t, exec (.setLane p seq [lb, 0#8, db]) s = .next t ∧
        t.lane l = disabled ∧ (∀ i, l = .output i → ∀ w n h, t.laneLevel i w n h = false) ∧
        (∀ r ∈ s.routes, t.route? r.id = if usesLane r l then none else some r) ∧
        (∀ l', l' ≠ l → t.lane l' = s.lane l') ∧
        (∃ n, (t.port p).holder = .executing
          { seq := seq, result := .ok, payload := [lb, 0#8, db, 0#8, byteOf n] } ∧
          n = s.routes.countP fun r => usesLane r l) ∧
        t.routeReports = s.routeReports ++
          (match l with
            | .input i => if (s.inLanes.get i).state = .running then [.sourcesDown i] else []
            | .output _ => []) ∧
        (∀ q, t.queue q = s.queueAfter q
          (if q = p then released false ++ released true ++ [.laneState l d .disabled]
           else [.laneChanged l d false, .laneState l d .disabled])) ∧
        (t.fa, t.fb, t.fx, t.channels) = (s.fa, s.fb, s.fx, s.channels)) ∧
    ((s.lane l).enabled = false → allowed →
      exec (.setLane p seq [lb, 0#8, db]) s = .next
        (((s.setLane l disabled).post [{ aud := .everyOpenBut p, ev := .laneChanged l d false }]).replied p seq .ok
          [lb, 0#8, db, 0#8, 0#8] 7)) ∧
    ((s.lane l).enabled = true → (s.lane l).binding = d → foreign = true →
      exec (.setLane p seq [lb, 0#8, db]) s = .next (s.replied p seq .notOwner [] 7)) ∧
    ((s.lane l).binding ≠ d → s.routes.any (fun r => usesLane r l) = true → ∀ eb, yesNo? eb ≠ none →
      exec (.setLane p seq [lb, eb, db]) s = .next (s.replied p seq .laneInUse [] 7))

/-! ### Clock domains -/

/-- SET_RATE (R78, R79, R82, R83, Tables 4.2 and 4.3), with FORCE or on a domain without holders: the rate code and the state the
tables give, a stop reported where the domain ran (R69), RATE_CHANGED and then DOMAIN_STATE for every open port, and the number
of holders stopped. It is refused BAD_ARGUMENT for a domain, a flag or a code it cannot take, and then DOMAIN_BUSY without FORCE
on a domain with holders. That a report stands in a list until it is taken, and that the monitor keeps a report due when FX
enters SEEKING with the clock present, is the model's reading (log entries 6 and 14). -/
def Obligations.SetRateMovesDomain : Prop :=
  ∀ (s : State) (p : Port) (seq cb fb : Byte), s.serving p = true →
    let stops := fun (d : Domain) (t : State) =>
      if s.running d then
        ({ t with routeReports := t.routeReports ++ [.domainStop d], laneReports := t.laneReports ++ [.domainStop d] } : State)
      else t
    let answer := fun (d : Domain) (t : State) (st : DomainState) (evCode : Nat) =>
      ((stops d t).post
          [{ aud := .everyOpen, ev := .rateChanged d cb.toNat }, { aud := .everyOpen, ev := .domainState d st evCode }]).replied
        p seq .ok
        [byteOf (Domain.code d), cb, byteOf st.code, byteOf (if s.running d then s.holderCount d else 0)] 7
    let allowed := fun (d : Domain) => fb = 1#8 ∨ (fb = 0#8 ∧ s.holderCount d = 0)
    let badCode := fun (d : Domain) => match d with
      | .fa | .fb => 5 < cb.toNat
      | .fx => cb ≠ 0#8 ∧ cb ≠ 6#8
    (allowed .fa → cb.toNat ≤ 5 →
      exec (.setRate p seq [0#8, cb, fb]) s = .next
        (answer .fa
          { s with fa := { s.fa with rateCode := Rate.ofCode? cb.toNat, state := if cb = 0#8 then .off else .locking } }
          (if cb = 0#8 then .off else .locking) cb.toNat)) ∧
    (allowed .fb → cb.toNat ≤ 5 →
      exec (.setRate p seq [1#8, cb, fb]) s = .next
        (answer .fb
          { s with fb := { s.fb with rateCode := Rate.ofCode? cb.toNat, state := if cb = 0#8 then .off else .locking } }
          (if cb = 0#8 then .off else .locking) cb.toNat)) ∧
    (allowed .fx → cb = 0#8 →
      exec (.setRate p seq [2#8, cb, fb]) s = .next
        (answer .fx
          { s with
            fx := { s.fx with external := false, state := .off }
            monitor := { s.monitor with reportDue := false } } .off 0)) ∧
    (allowed .fx → cb = 6#8 →
      exec (.setRate p seq [2#8, cb, fb]) s = .next
        (answer .fx
          { s with
            fx := { s.fx with external := true, state := .seeking }
            monitor := { s.monitor with reportDue := s.monitor.clock.isSome } } .seeking 6)) ∧
    (∀ db : Byte, 2 < db.toNat → exec (.setRate p seq [db, cb, fb]) s = .next (s.replied p seq .badArgument [] 7)) ∧
    (∀ (db : Byte) (d : Domain), domain? db = some d →
      (1 < fb.toNat ∨ badCode d → exec (.setRate p seq [db, cb, fb]) s = .next (s.replied p seq .badArgument [] 7)) ∧
      (fb = 0#8 → ¬badCode d → s.holderCount d ≠ 0 →
        exec (.setRate p seq [db, cb, fb]) s = .next (s.replied p seq .domainBusy [] 7)))

/-- LOCK_COMPLETE in LOCKING, for each domain (R72, R75, R69, R82): LOCKED with the frame count at 0, the start reported to
the Route Table and the Lane Units, DOMAIN_STATE for every open port. In any other state there is no lock to complete and
nothing changes (blank cells of Tables 4.2 and 4.3: the model's choice, log entry 5). -/
def Obligations.LockCompleteStartsDomain : Prop :=
  ∀ s : State, s.resetHeld = false →
    let started := fun (d : Domain) (t : State) (evCode : Nat) =>
      ({ t with
          routeReports := t.routeReports ++ [.domainStart d], laneReports := t.laneReports ++ [.domainStart d] } : State).post
        [{ aud := .everyOpen, ev := .domainState d .locked evCode }]
    (s.fa.state = .locking →
      exec (.lockComplete .fa) s = .next
        (started .fa { s with fa := { s.fa with state := .locked, frameCount := 0 } } (rateCodeOf s.fa.rateCode))) ∧
    (s.fb.state = .locking →
      exec (.lockComplete .fb) s = .next
        (started .fb { s with fb := { s.fb with state := .locked, frameCount := 0 } } (rateCodeOf s.fb.rateCode))) ∧
    (∀ m, s.fx.state = .locking m →
      exec (.lockComplete .fx) s = .next
        (started .fx { s with fx := { s.fx with state := .locked m, frameCount := 0 } } (Rate.code m))) ∧
    (∀ d, s.domainState d ≠ .locking → exec (.lockComplete d) s = .next s)

/-- CLOCK_FOUND, CLOCK_LOST and HOLDOVER_EXPIRED (R73 to R77, Table 4.3), by the state of FX. The holdover expires when its time
left has reached 0, and not before. That the monitor keeps the report of an entry into SEEKING due until CLOCK_FOUND makes it is
the model's reading (log entry 14); that a CLOCK_FOUND that is not due, a CLOCK_LOST without a clock and an expiry with time left
or outside HOLDOVER change nothing is the model's choice (log entries 4 and 5). -/
def Obligations.WordClockMovesFx : Prop :=
  ∀ s : State, s.resetHeld = false →
    let told := fun (t : State) (st : DomainState) (evCode : Nat) =>
      t.post [{ aud := .everyOpen, ev := .domainState .fx st evCode }]
    let stopped := fun (t : State) =>
      ({ t with routeReports := t.routeReports ++ [.domainStop .fx], laneReports := t.laneReports ++ [.domainStop .fx] } : State)
    let heard := fun (c : Option Rate) (st : FxState) =>
      ({ s with fx := { s.fx with state := st }, monitor := { clock := c, reportDue := false } } : State)
    (∀ r, s.monitor.clock = none →
      (s.fx.state = .off → exec (.clockFound r) s = .next (heard (some r) .off)) ∧
      (s.fx.state = .seeking →
        exec (.clockFound r) s = .next (told (heard (some r) (.locking r)) .locking (Rate.code r))) ∧
      (∀ m n, s.fx.state = .holdover m n →
        exec (.clockFound r) s = .next
          (if r = m then told (heard (some r) (.locked r)) .locked (Rate.code r)
           else told (stopped (heard (some r) (.locking r))) .locking (Rate.code r)))) ∧
    (∀ r, s.monitor = { clock := some r, reportDue := true } → s.fx.state = .seeking →
      exec (.clockFound r) s = .next (told (heard (some r) (.locking r)) .locking (Rate.code r))) ∧
    (s.monitor.clock ≠ none →
      (s.fx.state = .off ∨ s.fx.state = .seeking → exec .clockLost s = .next (heard none s.fx.state)) ∧
      (∀ m, s.fx.state = .locking m → s.fx.external = true →
        exec .clockLost s = .next (told (heard none .seeking) .seeking 6)) ∧
      (∀ m, s.fx.state = .locked m →
        exec .clockLost s = .next (told (heard none (.holdover m 12288000)) .holdover (Rate.code m)))) ∧
    (∀ r r0, s.monitor.clock = some r0 → s.monitor.reportDue = false ∨ r ≠ r0 ∨ s.fx.state ≠ .seeking →
      exec (.clockFound r) s = .next s) ∧
    (s.monitor.clock = none → exec .clockLost s = .next s) ∧
    (∀ m, s.fx.state = .holdover m 0 → s.monitor.clock = none → s.fx.external = true →
      exec .holdoverExpired s = .next (told (stopped (heard none .seeking)) .seeking 6)) ∧
    ((∀ m, s.fx.state ≠ .holdover m 0) → exec .holdoverExpired s = .next s)

/-! ### Routes and sinks -/

/-- CONNECT placed by case 1 of Table 2.2 (R10, R30): the record is made, the route becomes holder in ARMED, or SUSPENDED
with the causes that apply, and no event is made. -/
def Obligations.ConnectBecomesHolder : Prop :=
  ∀ (s : State) (p : Port) (seq hi lo : Byte) (a : ConnectBytes) (e : Source) (t : Sink) (d : Domain) (id : Nat),
    s.serving p = true → a.timeout = 256 * hi.toNat + lo.toNat → ConnectPasses s p a e t d id →
    (s.sinkEntry t).holder = none → s.claim t = [] →
    let st : RouteState := match s.running d, s.sourceUp e with
      | true, true => .armed
      | false, true => .suspended .domainDown
      | true, false => .suspended .sourceDown
      | false, false => .suspended .both
    let r := connectRecord s p a e t d id st
    exec (.connect p seq (a.params hi lo)) s = .next
      (((s.createRoute p r).takeSink id e t).replied p seq .ok
        [byteOf id, byteOf st.code, byteOf (Domain.code d), st.causesByte, 0#8] (4 + (a.params hi lo).length))

/-- CONNECT placed by case 5 of Table 2.2 (R31), on a sink that has a holder or waiters, without a preemption: the route waits
with its wait time left when it has one, and its place is that of R27: the queue is cut so that every entry behind it has a
lower priority and the entry before it one at least its own. By cases 3 and 4, with NOWAIT it is refused SINK_BUSY, and on a
full queue QUEUE_FULL. -/
def Obligations.ConnectWaitsOrIsRefused : Prop :=
  ∀ (s : State) (p : Port) (seq hi lo : Byte) (a : ConnectBytes) (e : Source) (t : Sink) (d : Domain) (id : Nat),
    s.serving p = true → a.timeout = 256 * hi.toNat + lo.toNat → ConnectPasses s p a e t d id →
    ((s.sinkEntry t).holder ≠ none ∨ s.claim t ≠ []) → id ∉ s.claim t →
    (a.flags.getLsbD 3 = false ∨ preemptable s t a.priority.toNat = none) →
    let r := connectRecord s p a e t d id (.waiting (if a.timeout = 0 then none else some (a.timeout * 24576)))
    (a.flags.getLsbD 4 = false → (s.claim t).length < 4 →
      ∃ front back, s.claim t = front ++ back ∧ (∀ x ∈ back, s.priorityOf x < a.priority.toNat) ∧
        (∀ x ∈ front.getLast?, a.priority.toNat ≤ s.priorityOf x) ∧
        exec (.connect p seq (a.params hi lo)) s = .next
          (((s.createRoute p r).setClaim t (front ++ id :: back)).replied p seq .ok
            [byteOf id, 1#8, byteOf (Domain.code d), 0#8, byteOf (front.length + 1)] (4 + (a.params hi lo).length))) ∧
    (a.flags.getLsbD 4 = false → 4 ≤ (s.claim t).length →
      exec (.connect p seq (a.params hi lo)) s = .next (s.replied p seq .queueFull [] (4 + (a.params hi lo).length))) ∧
    (a.flags.getLsbD 4 = true →
      exec (.connect p seq (a.params hi lo)) s = .next (s.replied p seq .sinkBusy [] (4 + (a.params hi lo).length)))

/-- CONNECT placed by case 2 of Table 2.2 (R37, R38): exactly when the four conditions of R37 hold, the new route waits at the
head, and a sounding holder enters RAMP_DOWN, PREEMPTED, from its current gain, with nothing sent to its owner; a holder in
ARMED or SUSPENDED meets its outcome at once. The outcome (R40): with REQUEUE, an owner and fewer than 4 waiters at that moment,
and only then, the holder frees its sink and waits again by its priority without wait time left, and its owner is told
ROUTE_REQUEUED with the place; else it is released with cause PREEMPTED. -/
def Obligations.ConnectPreempts : Prop :=
  (∀ (s : State) (t : Sink) (prio : Nat) (h : Route), preemptable s t prio = some h ↔
    s.holderOf t = some h ∧ h.priority < prio ∧ (∀ o, h.state ≠ .rampDown o) ∧
      (∀ id ∈ s.claim t, s.priorityOf id < prio) ∧ (s.claim t).length < 4) ∧
  (∀ (s : State) (p : Port) (seq hi lo : Byte) (a : ConnectBytes) (e : Source) (t : Sink) (d : Domain) (id : Nat) (h : Route),
    s.serving p = true → a.timeout = 256 * hi.toNat + lo.toNat → ConnectPasses s p a e t d id →
    a.flags.getLsbD 3 = true → preemptable s t a.priority.toNat = some h →
    let r := connectRecord s p a e t d id (.waiting (if a.timeout = 0 then none else some (a.timeout * 24576)))
    let s1 := (s.createRoute p r).setClaim t (id :: s.claim t)
    let answer := fun (x : State) =>
      x.replied p seq .ok [byteOf id, 1#8, byteOf (Domain.code d), 0#8, 1#8] (4 + (a.params hi lo).length)
    (h.state = .rampUp ∨ h.state = .live →
      exec (.connect p seq (a.params hi lo)) s = .next
        (answer (s1.setRoute { h with state := .rampDown .preempted, rampCount := 0 }))) ∧
    (h.state = .armed ∨ (∃ cs, h.state = .suspended cs) →
      exec (.connect p seq (a.params hi lo)) s = .next
        (answer ((carryOut .preempted h s1).st.post (carryOut .preempted h s1).evs)))) ∧
  (∀ (s : State) (h : Route),
    (¬(h.flags.requeue = true ∧ h.owner ≠ none ∧ (s.claim h.sink).length < 4) →
      carryOut .preempted h s = releaseHolder .preempted true h s) ∧
    (∀ p, h.flags.requeue = true → h.owner = some p → (s.claim h.sink).length < 4 → h.id ∉ s.claim h.sink →
      ∃ front back, s.claim h.sink = front ++ back ∧ (∀ x ∈ back, s.priorityOf x < h.priority) ∧
        (∀ x ∈ front.getLast?, h.priority ≤ s.priorityOf x) ∧
        carryOut .preempted h s =
          { st := { s with
              routes := s.routes.map fun x =>
                if x.id = h.id then { h with state := .waiting none, current := 0, rampCount := 0 } else x
              claims := Bank.setSink s.claims h.sink (front ++ h.id :: back)
              sinks := Bank.setSink s.sinks h.sink { s.sinkEntry h.sink with holder := none }
              sources := Bank.setSource s.sources h.source
                { s.sourceEntry h.source with fanOut := (s.sourceEntry h.source).fanOut - 1 } }
            evs := [{ aud := .only p, ev := .routeRequeued h.id h.sink (front.length + 1) }] }))

/-- The record a CONNECT makes (R2, R10, R107): under the id no route had, beside every other route; the port owns one route
more; a store of the route that was unbound is bound to the route's domain and every other store is kept. -/
def Obligations.CreatedRouteStands : Prop :=
  ∀ (s : State) (p : Port) (r : Route), RoutesOrdered s → lowestFreeId s.routes = some r.id →
    let t := s.createRoute p r
    s.route? r.id = none ∧ (∀ k, 1 ≤ k → k < r.id → s.route? k ≠ none) ∧
    t.route? r.id = some r ∧ (∀ k, k ≠ r.id → t.route? k = s.route? k) ∧
    t.session p = { s.session p with owned := (s.session p).owned + 1 } ∧
    (∀ n, t.store n =
      if usesStore r n ∧ (s.store n).binding = none then { s.store n with binding := some r.domain } else s.store n) ∧
    { t with routes := s.routes, sessions := s.sessions, stores := s.stores } = s

/-- A CONNECT whose checks fail is answered with the first check that fails (R5 to R9): values, endpoints by their wire
numbers, lanes and stores that are not available, the domain, the quota, the table. -/
def Obligations.ConnectRefusedByFirstCheck : Prop :=
  ∀ (s : State) (p : Port) (seq hi lo : Byte) (a : ConnectBytes), s.serving p = true →
    a.timeout = 256 * hi.toNat + lo.toNat →
    let refused := fun (res : Result) =>
      exec (.connect p seq (a.params hi lo)) s = .next (s.replied p seq res [] (4 + (a.params hi lo).length))
    let src := a.source.toNat
    let snk := a.sink.toNat
    let isSource := src ≤ 15 ∨ (36 ≤ src ∧ src ≤ 39)
    let isSink := 16 ≤ snk ∧ snk ≤ 35
    let loops := 36 ≤ src ∧ 32 ≤ snk ∧ src - 36 = snk - 32
    let bad := 3 < a.priority.toNat ∨ 120 < a.target.toNat ∨ 3 < a.rampRate.toNat ∨ 60000 < a.timeout ∨
      32 ≤ a.flags.toNat ∨ (a.flags.getLsbD 3 = true ∧ a.flags.getLsbD 4 = true) ∨ ∃ b ∈ a.domain, 2 < b.toNat
    (bad → refused .badArgument) ∧
    (¬bad → 39 < src ∨ 39 < snk → refused .noSuchEndpoint) ∧
    (¬bad → src ≤ 39 → snk ≤ 39 → ¬isSource → refused .notASource) ∧
    (¬bad → snk ≤ 39 → isSource → ¬isSink → refused .notASink) ∧
    (¬bad → isSource → isSink → loops → refused .loop) ∧
    (¬bad → isSource → isSink → ¬loops →
      ∃ e t, connectEndpoints a = .ok (e, t) ∧ Source.wire e = src ∧ Sink.wire t = snk ∧
        (onDisabledLane s e t = true → refused .laneDisabled) ∧
        (onDisabledLane s e t = false → onUnconfiguredStore s e t = true → refused .storeUnconfigured) ∧
        (onDisabledLane s e t = false → onUnconfiguredStore s e t = false →
          (connectDomain s e t (a.domain.bind domain?) = none → refused .domainMismatch) ∧
          (connectDomain s e t (a.domain.bind domain?) ≠ none → 24 ≤ (s.session p).owned → refused .quotaExceeded) ∧
          (connectDomain s e t (a.domain.bind domain?) ≠ none → (s.session p).owned < 24 → 48 ≤ s.routes.length →
            refused .tableFull)))

/-- DISCONNECT of an owned route by its state (R19, Table 1.4), and its refusals (R18). -/
def Obligations.DisconnectByRouteState : Prop :=
  ∀ (s : State) (p : Port) (seq b : Byte), s.serving p = true →
    let id := b.toNat
    let released := fun (e : Eff) => (e.st.post e.evs).replied p seq .ok [b, 0#8] 5
    let ramping := fun (r' : Route) => (s.setRoute r').replied p seq .ok [b, 5#8] 5
    (id = 0 ∨ 48 < id → exec (.disconnect p seq [b]) s = .next (s.replied p seq .badArgument [] 5)) ∧
    (1 ≤ id → id ≤ 48 → s.route? id = none →
      exec (.disconnect p seq [b]) s = .next (s.replied p seq .noSuchRoute [] 5)) ∧
    (∀ r, 1 ≤ id → id ≤ 48 → s.route? id = some r →
      (r.owner ≠ some p → exec (.disconnect p seq [b]) s = .next (s.replied p seq .notOwner [] 5)) ∧
      (r.owner = some p →
        (∀ n, r.state = .waiting n →
          exec (.disconnect p seq [b]) s = .next (released (releaseWaiter .disconnected false r s))) ∧
        (r.state = .armed ∨ (∃ cs, r.state = .suspended cs) →
          exec (.disconnect p seq [b]) s = .next (released (releaseHolder .disconnected false r s))) ∧
        (r.state = .rampUp ∨ r.state = .live →
          exec (.disconnect p seq [b]) s = .next (ramping { r with state := .rampDown .disconnected, rampCount := 0 })) ∧
        (r.state = .rampDown .preempted →
          exec (.disconnect p seq [b]) s = .next (ramping { r with state := .rampDown .disconnected })) ∧
        (r.state = .rampDown .disconnected →
          exec (.disconnect p seq [b]) s = .next (s.replied p seq .badState [] 5))))

/-- The steps of a release (R21, R22): the record leaves the table and every other record stays; its sink is freed and its
source feeds one holder fewer, or, for a waiter, it leaves its claim queue and the holder is not disturbed; its owner owns one
fewer; a store no other route uses loses its binding; the owner alone is told. -/
def Obligations.ReleaseTakesItsSteps : Prop :=
  ∀ (s : State) (r : Route) (cause : ReleaseCause) (tell : Bool), RoutesOrdered s → r ∈ s.routes →
    let gone := fun (t : State) =>
      t.route? r.id = none ∧ (∀ k, k ≠ r.id → t.route? k = s.route? k) ∧
      (∀ q, t.session q =
        if r.owner = some q then { s.session q with owned := (s.session q).owned - 1 } else s.session q) ∧
      (∀ n, t.store n =
        if usesStore r n ∧ (∀ x ∈ s.routes, x.id ≠ r.id → usesStore x n = false) then { s.store n with binding := none }
        else s.store n)
    let told := if tell then
        (match r.owner with
          | some p => [{ aud := .only p, ev := .routeReleased r.id r.sink cause }]
          | none => ([] : List Emit))
      else []
    let eh := releaseHolder cause tell r s
    let ew := releaseWaiter cause tell r s
    (gone eh.st ∧ eh.evs = told ∧ (eh.st.sinkEntry r.sink).holder = none ∧
      (eh.st.sourceEntry r.source).fanOut = (s.sourceEntry r.source).fanOut - 1 ∧
      (∀ t, t ≠ r.sink → eh.st.sinkEntry t = s.sinkEntry t) ∧
      (∀ e, e ≠ r.source → eh.st.sourceEntry e = s.sourceEntry e) ∧
      { eh.st with
        routes := s.routes, sessions := s.sessions, stores := s.stores, sinks := s.sinks, sources := s.sources } = s) ∧
    (gone ew.st ∧ ew.evs = told ∧ ew.st.claim r.sink = (s.claim r.sink).filter (· != r.id) ∧
      (∀ t, t ≠ r.sink → ew.st.claim t = s.claim t) ∧
      { ew.st with routes := s.routes, sessions := s.sessions, stores := s.stores, claims := s.claims } = s)

/-- The reports the Route Table takes (R13 to R15), route by route, when they are the oldest outstanding about their domain or
lane (log entry 6); one that is not changes nothing. Every route they do not concern is kept; a WAITING route is unchanged; an
ARMED, RAMP_UP or LIVE route is suspended at gain 0; a SUSPENDED route takes or loses one cause, and with the last goes to
ARMED; a route in RAMP_DOWN with pending outcome DISCONNECTED is released, and one with PREEMPTED waits again exactly when R40
says so, and else is released. Sources down gives SOURCE_DOWN alone (log entry 9). Each owner is told of its routes and nobody
of anything else, in an order R139 leaves open. -/
def Obligations.RouteTableTakesReports : Prop :=
  ∀ (s : State) (order : Picks), RoutesOrdered s → SinksSound s →
    let down := fun (c : SuspendCause) (concerns : Route → Bool) (t : State) => ∀ r ∈ s.routes,
      if concerns r then
        match r.state with
        | .waiting _ => t.route? r.id = some r
        | .armed | .rampUp | .live =>
          t.route? r.id = some { r with
            state := .suspended (match c with
              | .domainDown => if s.sourceUp r.source then .domainDown else .both
              | .sourceDown => .sourceDown)
            current := 0, rampCount := 0 }
        | .suspended cs => t.route? r.id = some { r with state := .suspended (withCause cs c) }
        | .rampDown .disconnected => t.route? r.id = none
        | .rampDown .preempted =>
          if s.waitsAgain r then
            t.route? r.id = some { r with state := .waiting none, current := 0, rampCount := 0 } ∧
              t.claim r.sink = s.aheadOf r.priority (s.claim r.sink) ++ r.id :: s.behindOf r.priority (s.claim r.sink)
          else t.route? r.id = none
      else t.route? r.id = some r
    let up := fun (c : SuspendCause) (concerns : Route → Bool) (t : State) => ∀ r ∈ s.routes,
      t.route? r.id = some
        (if concerns r then
          match r.state, c with
          | .suspended .both, .domainDown => { r with state := .suspended .sourceDown }
          | .suspended .both, .sourceDown => { r with state := .suspended .domainDown }
          | .suspended .domainDown, .domainDown | .suspended .sourceDown, .sourceDown =>
            { r with state := .armed, current := 0, rampCount := 0 }
          | _, _ => r
        else r)
    let told := fun (concerns : Route → Bool) (f : Route → Option Event) (t : State) =>
      ∀ q, ∃ evs, evs.Perm (s.ownerEvents q concerns f) ∧ t.queue q = s.queueAfter q evs
    let oldest := fun (about : RouteReport → Bool) => (s.routeReports.filter about).head?
    let kept := fun (t : State) =>
      (t.ports, t.inLanes, t.outLanes, t.fa, t.fb, t.fx, t.monitor, t.channels, t.laneReports) =
        (s.ports, s.inLanes, s.outLanes, s.fa, s.fb, s.fx, s.monitor, s.channels, s.laneReports)
    (∀ d, let mine := fun (r : Route) => r.domain == d
      (oldest (RouteReport.aboutDomain d) = some (.domainStop d) →
        ∃ t, exec (.routeTableDomainStop d order) s = .next t ∧ t.routeReports = s.routeReports.erase (.domainStop d) ∧
          kept t ∧ down .domainDown mine t ∧ told mine (s.downEvent .domainDown) t) ∧
      (oldest (RouteReport.aboutDomain d) ≠ some (.domainStop d) → exec (.routeTableDomainStop d order) s = .next s) ∧
      (oldest (RouteReport.aboutDomain d) = some (.domainStart d) →
        ∃ t, exec (.routeTableDomainStart d order) s = .next t ∧ t.routeReports = s.routeReports.erase (.domainStart d) ∧
          kept t ∧ t.claims = s.claims ∧ t.sinks = s.sinks ∧ up .domainDown mine t ∧ told mine (upEvent .domainDown) t) ∧
      (oldest (RouteReport.aboutDomain d) ≠ some (.domainStart d) → exec (.routeTableDomainStart d order) s = .next s)) ∧
    (∀ i, let mine := fun (r : Route) => usesLane r (.input i)
      (oldest (RouteReport.aboutLane i) = some (.sourcesDown i) →
        ∃ t, exec (.sourcesDown i order) s = .next t ∧ t.routeReports = s.routeReports.erase (.sourcesDown i) ∧
          kept t ∧ down .sourceDown mine t ∧ told mine (s.downEvent .sourceDown) t) ∧
      (oldest (RouteReport.aboutLane i) ≠ some (.sourcesDown i) → exec (.sourcesDown i order) s = .next s) ∧
      (oldest (RouteReport.aboutLane i) = some (.sourcesUp i) →
        ∃ t, exec (.sourcesUp i order) s = .next t ∧ t.routeReports = s.routeReports.erase (.sourcesUp i) ∧
          kept t ∧ t.claims = s.claims ∧ t.sinks = s.sinks ∧ up .sourceDown mine t ∧ told mine (upEvent .sourceDown) t) ∧
      (oldest (RouteReport.aboutLane i) ≠ some (.sourcesUp i) → exec (.sourcesUp i order) s = .next s))

/-- GRANT (R34, R35): the head of the claim queue of a free sink becomes its holder, in ARMED, or SUSPENDED with the causes
that apply, and its owner is told of the grant and then of each cause; a sink that has a holder, or no waiters, is left. -/
def Obligations.GrantGivesSinkToHead : Prop :=
  (∀ (s : State) (t : Sink) (id : Nat) (rest : List Nat) (r : Route), (s.sinkEntry t).holder = none →
    s.claim t = id :: rest → id ∉ rest → s.route? id = some r → r.sink = t → r.id = id →
    let down := !s.running r.domain
    let off := !s.sourceUp r.source
    let st : RouteState := match down, off with
      | false, false => .armed
      | true, false => .suspended .domainDown
      | false, true => .suspended .sourceDown
      | true, true => .suspended .both
    let events := [Event.routeGranted id t] ++ (if down then [.routeSuspended id t .domainDown] else []) ++
      (if off then [.routeSuspended id t .sourceDown] else [])
    exec (.grant t) s = .next
      (({ s with
          claims := Bank.setSink s.claims t rest
          routes := s.routes.map fun x => if x.id = id then { r with state := st, current := 0, rampCount := 0 } else x
          sinks := Bank.setSink s.sinks t { s.sinkEntry t with holder := some id }
          sources := Bank.setSource s.sources r.source
            { s.sourceEntry r.source with fanOut := (s.sourceEntry r.source).fanOut + 1 } } : State).post
        (match r.owner with
          | some p => events.map fun ev => { aud := .only p, ev := ev }
          | none => []))) ∧
  (∀ (s : State) (t : Sink), (s.sinkEntry t).holder ≠ none ∨ s.claim t = [] → exec (.grant t) s = .next s)

/-- WAIT_TIMEOUT (R44, R45): a WAITING route whose timer has reached 0 leaves its queue and is released with cause WAIT_TIMEOUT;
any other route, one with wait time left among them, is left as it is (its timer has not expired: the model's choice of what
such a command does, log entries 4 and 5). -/
def Obligations.WaitTimeoutReleasesWaiter : Prop :=
  (∀ (s : State) (id : Nat) (r : Route), s.route? id = some r → r.state = .waiting (some 0) →
    let e := releaseWaiter .waitTimeout true r s
    exec (.waitTimeout id) s = .next (e.st.post e.evs)) ∧
  (∀ (s : State) (id : Nat), (∀ r, s.route? id = some r → r.state ≠ .waiting (some 0)) →
    exec (.waitTimeout id) s = .next s)

/-! ### Lanes and domains -/

/-- LANE_DOMAIN_STOP and LANE_DOMAIN_START (R94, R96), when they are the oldest reports about their domain (log entry 6); one that
is not changes nothing. At a stop every enabled input lane of the domain goes to SEEKING with both runs 0 and reports its sources
down if it was RUNNING, every open port is told LANE_STATE of each that was in RUNNING or FAULT, and every enabled output lane of
the domain holds its three wires low. A start moves no lane, and the next frame of an input lane is judged afresh (from the report
on: the model's reading, log entry 21). -/
def Obligations.LanesTakeDomainReports : Prop :=
  ∀ (s : State) (d : Domain) (order : Picks), LanesSound s →
    let mine := fun (x : Lane) => x.enabled && x.binding == d
    let oldest := (s.laneReports.filter (LaneReport.aboutDomain d)).head?
    (oldest = some (.domainStop d) → ∃ t, exec (.laneDomainStop d order) s = .next t ∧
      (∀ i, t.inLanes.get i =
        if mine (s.inLanes.get i) then
          { s.inLanes.get i with state := .seeking, goodRun := 0, badRun := 0, syncPhase := none }
        else s.inLanes.get i) ∧
      (∀ i, t.outLanes.get i =
        if mine (s.outLanes.get i) then { s.outLanes.get i with wires := .low } else s.outLanes.get i) ∧
      (∀ i w n h, mine (s.outLanes.get i) = true → t.laneLevel i w n h = false) ∧
      t.routeReports = s.routeReports ++
        (Idx.all.filter fun i => mine (s.inLanes.get i) && (s.inLanes.get i).state == .running).map .sourcesDown ∧
      { t with
        inLanes := s.inLanes, outLanes := s.outLanes, routeReports := s.routeReports, laneReports := s.laneReports,
        queues := s.queues } = s ∧
      t.laneReports = s.laneReports.erase (.domainStop d) ∧
      ∀ q, ∃ evs, t.queue q = s.queueAfter q evs ∧
        evs.Perm ((Idx.all.filter fun i => mine (s.inLanes.get i) &&
          ((s.inLanes.get i).state == .running || (s.inLanes.get i).state == .fault)).map fun i =>
            .laneState (.input i) d .seeking)) ∧
    (oldest ≠ some (.domainStop d) → exec (.laneDomainStop d order) s = .next s) ∧
    (oldest = some (.domainStart d) →
      exec (.laneDomainStart d) s = .next
        { s with
          laneReports := s.laneReports.erase (.domainStart d)
          inLanes := .tab fun i =>
            if mine (s.inLanes.get i) then { s.inLanes.get i with syncPhase := none } else s.inLanes.get i }) ∧
    (oldest ≠ some (.domainStart d) → exec (.laneDomainStart d) s = .next s)

/-! ### Gain and the Frame Path -/

/-- The gain coefficients (R49): 0 for code 0; for code k from 1 to 120 the integer nearest to 8388608 × 10^((k − 120)/40), no
two of them equally near; strictly rising; 8886 for code 1 and 8388608 for code 120; so no code raises a magnitude and code
120 passes a sample unchanged. -/
def Obligations.GainCoefficientsAreNearest : Prop :=
  gainCoeff 0 = 0 ∧
  (∀ k, 1 ≤ k → k ≤ 120 →
    (2 * gainCoeff k - 1) ^ 40 * 10 ^ (120 - k) < 16777216 ^ 40 ∧ 16777216 ^ 40 < (2 * gainCoeff k + 1) ^ 40 * 10 ^ (120 - k)) ∧
  (∀ k, k < 120 → gainCoeff k < gainCoeff (k + 1)) ∧ gainCoeff 1 = 8886 ∧ gainCoeff 60 = 265271 ∧
  gainCoeff 108 = 4204263 ∧ gainCoeff 120 = 8388608 ∧
  (∀ (x : Sample) (k : Nat), k ≤ 120 → magnitude (routeStage x k) ≤ magnitude x) ∧ (∀ x : Sample, routeStage x 120 = x)

/-- The route stage (R50): the exact quotient of the product by 8388608, rounded to the nearest integer, a tie going away from
zero; never saturated; 0 at gain 0, the sample itself at gain 120; and the manual's examples. -/
def Obligations.RouteStageRounds : Prop :=
  (∀ (x : Sample) (k : Nat), k ≤ 120 →
    let y := (routeStage x k).toInt
    let q := x.toInt * (gainCoeff k : Int)
    (2 * (q - 8388608 * y)).natAbs ≤ 8388608 ∧
    ((2 * (q - 8388608 * y)).natAbs = 8388608 → q.natAbs < 8388608 * y.natAbs)) ∧
  (∀ (x : Sample) (k : Nat), k ≤ 120 → magnitude (routeStage x k) ≤ magnitude x) ∧
  (∀ x : Sample, routeStage x 0 = 0#24) ∧ (∀ x : Sample, routeStage x 120 = x) ∧
  routeStage 1000000#24 108 = 501187#24 ∧ routeStage 1000000#24 120 = 1000000#24 ∧ routeStage 1000000#24 0 = 0#24

/-- The trim stage (R61): the coefficients are the nearest integers; the exact quotient is rounded to the nearest integer, a tie
going away from zero; trim 0 passes every sample; silence stays silence; a value beyond the range of a sample is replaced by the
nearer end, exactly then counting one clip up to 65535; the peak meter takes the larger magnitude (R62). -/
def Obligations.TrimStageSaturates : Prop :=
  (∀ t, t ≤ 24 →
    (2 * trimCoeff t - 1) ^ 40 ≤ 16777216 ^ 40 * 10 ^ t ∧ 16777216 ^ 40 * 10 ^ t < (2 * trimCoeff t + 1) ^ 40) ∧
  (∀ x : Sample, trimStage x 0 = x) ∧ (∀ t, trimStage 0#24 t = 0#24) ∧
  (∀ (x : Sample) (t : Nat), t ≤ 24 →
    let v := trimmed x t
    let q := x.toInt * (trimCoeff t : Int)
    (2 * (q - 8388608 * v)).natAbs ≤ 8388608 ∧
    ((2 * (q - 8388608 * v)).natAbs = 8388608 → q.natAbs < 8388608 * v.natAbs) ∧
    (trimStage x t).toInt = max (-8388608) (min 8388607 v)) ∧
  (∀ (c : Channel) (x : Sample), c.clips ≤ 65535 → channelAfter c x =
    { trim := c.trim
      peak := max c.peak (magnitude (trimStage x c.trim))
      clips := if trimmed x c.trim = (trimStage x c.trim).toInt then c.clips else min 65535 (c.clips + 1) })

/-- The length of an undisturbed ramp (R51, R52, Table 3.3): a route that begins to move with ramp count 0 reaches its aim at
the boundary after d step intervals, one boundary at rate 0, and not before. -/
def Obligations.RampReachesAimOnTime : Prop :=
  ∀ (r : Route) (aim : Nat), r.rampRate ≤ 3 → r.rampCount = 0 → r.current ≠ aim →
    let d := if r.current ≤ aim then aim - r.current else r.current - aim
    let n := if r.rampRate = 0 then 1 else d * stepInterval r.rampRate
    (Nat.repeat (moveToward aim) n r).current = aim ∧ ∀ k, k < n → (Nat.repeat (moveToward aim) k r).current ≠ aim

/-- SET_GAIN (R54, R55): in every state but RAMP_DOWN only the target changes, the ramp count and the current gain being kept;
the refusals in their order. -/
def Obligations.SetGainSetsTarget : Prop :=
  ∀ (s : State) (p : Port) (seq b g : Byte), s.serving p = true →
    let id := b.toNat
    (id = 0 ∨ 48 < id ∨ 120 < g.toNat → exec (.setGain p seq [b, g]) s = .next (s.replied p seq .badArgument [] 6)) ∧
    (1 ≤ id → id ≤ 48 → g.toNat ≤ 120 →
      (s.route? id = none → exec (.setGain p seq [b, g]) s = .next (s.replied p seq .noSuchRoute [] 6)) ∧
      (∀ r, s.route? id = some r →
        (r.owner ≠ some p → exec (.setGain p seq [b, g]) s = .next (s.replied p seq .notOwner [] 6)) ∧
        (r.owner = some p → (∃ o, r.state = .rampDown o) →
          exec (.setGain p seq [b, g]) s = .next (s.replied p seq .badState [] 6)) ∧
        (r.owner = some p → (∀ o, r.state ≠ .rampDown o) →
          exec (.setGain p seq [b, g]) s = .next
            (({ s with routes := s.routes.map fun x => if x.id = r.id then { r with target := g.toNat } else x } :
                State).replied p seq .ok [b, byteOf r.state.code, g, byteOf r.current] 6))))

/-- SET_TRIM and RESET_METER (R63, R64) on an output channel, and their refusals in order. -/
def Obligations.TrimAndMeterCommands : Prop :=
  ∀ (s : State) (p : Port) (seq b v : Byte), s.serving p = true →
    (24 < v.toNat → exec (.setTrim p seq [b, v]) s = .next (s.replied p seq .badArgument [] 6)) ∧
    (v.toNat ≤ 24 →
      (endpoint? b.toNat = none → exec (.setTrim p seq [b, v]) s = .next (s.replied p seq .noSuchEndpoint [] 6)) ∧
      (∀ e, endpoint? b.toNat = some (.source e) →
        exec (.setTrim p seq [b, v]) s = .next (s.replied p seq .notASink [] 6)) ∧
      (∀ n, endpoint? b.toNat = some (.sink (.storeIn n)) →
        exec (.setTrim p seq [b, v]) s = .next (s.replied p seq .badArgument [] 6)) ∧
      (∀ l k, endpoint? b.toNat = some (.sink (.output l k)) →
        exec (.setTrim p seq [b, v]) s = .next
          (((s.setChannel l k { s.channel l k with trim := v.toNat }).post
            [{ aud := .everyOpenBut p, ev := .trimChanged l k v.toNat }]).replied p seq .ok [b, v] 6))) ∧
    (endpoint? b.toNat = none → exec (.resetMeter p seq [b]) s = .next (s.replied p seq .noSuchEndpoint [] 5)) ∧
    (∀ e, endpoint? b.toNat = some (.source e) →
      exec (.resetMeter p seq [b]) s = .next (s.replied p seq .notASink [] 5)) ∧
    (∀ n, endpoint? b.toNat = some (.sink (.storeIn n)) →
      exec (.resetMeter p seq [b]) s = .next (s.replied p seq .badArgument [] 5)) ∧
    (∀ l k, endpoint? b.toNat = some (.sink (.output l k)) →
      exec (.resetMeter p seq [b]) s = .next
        ((s.setChannel l k { trim := (s.channel l k).trim, peak := 0, clips := 0 }).replied p seq .ok
          ([b] ++ bytes3 (s.channel l k).peak ++ bytes2 (s.channel l k).clips) 5))

/-- FRAME_BOUNDARY of a running domain, what it counts and what it does not concern (R68, R70): the domain's frame count rises
by one; the other domains, the ports, the sessions' states and epochs, and every route, lane, store and channel of another
domain, are as they were. A domain that does not run has no boundary, and one named for it changes nothing (the model's choice,
log entry 5). -/
def Obligations.BoundaryConcernsItsDomain : Prop :=
  ∀ (s : State) (d : Domain) (rx : Quad LaneRx) (order : Picks), RoutesOrdered s → StoresBound s →
    (s.running d = false → exec (.frameBoundary d rx order) s = .next s) ∧
    (s.running d = true → ∃ t, exec (.frameBoundary d rx order) s = .next t ∧
      (∀ d', t.frameCount d' = if d' = d then s.frameCount d' + 1 else s.frameCount d') ∧
      (∀ d', t.domainState d' = s.domainState d' ∧ t.rateCode d' = s.rateCode d') ∧
      t.ports = s.ports ∧ t.monitor = s.monitor ∧ t.laneReports = s.laneReports ∧
      (∀ q, (t.session q).isOpen = (s.session q).isOpen ∧ (t.session q).epoch = (s.session q).epoch) ∧
      (∀ r ∈ s.routes, r.domain ≠ d → t.route? r.id = some r) ∧
      (∀ l, ((s.lane l).enabled = false ∨ (s.lane l).binding ≠ d) → t.lane l = s.lane l) ∧
      (∀ n, (s.store n).binding ≠ some d → t.store n = s.store n) ∧
      (∀ l k, ((s.outLanes.get l).enabled = false ∨ (s.outLanes.get l).binding ≠ d) → t.channel l k = s.channel l k) ∧
      (∀ e, t.tagOf e = s.tagOf e))

/-- FRAME_BOUNDARY at the routes of its domain (R11, R52, R53, Table 3.2), by the state in which it reaches them; a preempted
holder that reaches gain 0 waits again exactly when R40 says so. Each owner is told of its routes (R11, R12, R17, R40, R56), in an
order R139 leaves open, among the events of the lanes and the stores. -/
def Obligations.BoundaryStepsRoutes : Prop :=
  ∀ (s : State) (d : Domain) (rx : Quad LaneRx) (order : Picks), RoutesOrdered s → RoutesInRange s → SinksSound s →
    s.running d = true → ∃ t, exec (.frameBoundary d rx order) s = .next t ∧ (∀ r ∈ s.routes, r.domain = d →
      match r.state with
      | .waiting _ | .suspended _ => t.route? r.id = some r
      | .armed =>
        t.route? r.id = some { r with state := if r.target = 0 then .live else .rampUp, current := 0, rampCount := 0 }
      | .rampUp =>
        let x := steppedGain r r.target
        t.route? r.id = some
          { r with current := x.1, rampCount := x.2, state := if x.1 = r.target then .live else .rampUp }
      | .live =>
        let x := steppedGain r r.target
        t.route? r.id = some { r with current := x.1, rampCount := x.2 }
      | .rampDown o =>
        let x := steppedGain r 0
        if x.1 ≠ 0 then t.route? r.id = some { r with current := x.1, rampCount := x.2 }
        else
          match o with
          | .disconnected => t.route? r.id = none
          | .preempted =>
            if s.waitsAgain r then
              t.route? r.id = some { r with state := .waiting none, current := 0, rampCount := 0 } ∧
                t.claim r.sink = s.aheadOf r.priority (s.claim r.sink) ++ r.id :: s.behindOf r.priority (s.claim r.sink)
            else t.route? r.id = none) ∧
      ∀ q, ∃ evs, t.queue q = s.queueAfter q evs ∧
        (∀ ev ∈ evs, ev.ofRoute = true ∨ ev.ofLane = true ∨ ev.store? ≠ none) ∧
        (evs.filter Event.ofRoute).Perm (s.ownerEvents q (fun r => r.domain == d) s.boundaryEvent)

/-- FRAME_BOUNDARY at the input lanes, the output channels and the wires (R58, R59, R61, R62, R92, R93, R96). Each enabled input
lane of the domain judges its interval good when exactly one sync came, a whole multiple of 128 bits after that of its last good
frame if one is on record (R92; the model keeps the bits since that sync modulo 128), moves by Table 5.3, and every open port is
told LANE_STATE of each lane that moved. An output channel of the domain receives silence unless its holder sounds, and then the
route stage of its source sample at the gain after the step; the sample goes through the channel's trim to its meter, its clip
count and the wires: one period of the bit clock, at 128 times the frame rate, for each of the 128 bits, the frame sync in the
first of them, and in each slot the 24 data bits, most significant first, and eight bits of 0. That the sync stands for the whole
first bit, and the data for each bit, is the model's reading (log entry 27). -/
def Obligations.BoundaryFormsSamples : Prop :=
  ∀ (s : State) (d : Domain) (rx : Quad LaneRx) (order : Picks), RoutesOrdered s → RoutesInRange s → SinksSound s →
    s.running d = true → ∃ t, exec (.frameBoundary d rx order) s = .next t ∧
      let good := fun (i : Idx) => match (rx.get i).syncs, (s.inLanes.get i).syncPhase with
        | [at_], some n => decide ((n + at_) % 128 = 0)
        | [_], none => true
        | _, _ => false
      (∀ i, (s.inLanes.get i).enabled = true → (s.inLanes.get i).binding = d →
        let x := s.inLanes.get i
        let y := t.inLanes.get i
        y.enabled = true ∧ y.binding = d ∧
        y.syncPhase =
          (match good i, (rx.get i).syncs with
            | true, at_ :: _ => some (((rx.get i).bits - at_) % 128)
            | _, _ => x.syncPhase.map fun n => (n + (rx.get i).bits) % 128) ∧
        (x.state = .seeking ∨ x.state = .fault →
          (y.state, y.goodRun, y.badRun) =
            if !good i then (x.state, 0, 0) else if x.goodRun + 1 = 8 then (.running, 0, 0) else (x.state, x.goodRun + 1, 0)) ∧
        (x.state = .running →
          (y.state, y.goodRun, y.badRun) =
            if good i then (.running, x.goodRun, 0)
            else if x.badRun + 1 = 2 then (.fault, 0, 0) else (.running, x.goodRun, x.badRun + 1))) ∧
      (∀ l, (s.outLanes.get l).enabled = true → (s.outLanes.get l).binding = d →
        let gainAfter := fun (r : Route) => (steppedGain r (match r.state with
          | .rampDown _ => 0
          | _ => r.target)).1
        ∃ formed : Idx → Sample,
          (∀ k, (∀ r ∈ s.routes, r.sink = .output l k → r.state.sounds = true → r.domain ≠ d) → formed k = 0#24) ∧
          (∀ k r i j, r ∈ s.routes → r.sink = .output l k → r.domain = d → r.state.sounds = true → r.source = .input i j →
            formed k =
              if (s.inLanes.get i).enabled && (s.inLanes.get i).binding == d
                  && good i && (t.inLanes.get i).state == .running then
                routeStage ((rx.get i).frame.extractLsb' (104 - 32 * j.toNat) 24) (gainAfter r)
              else 0#24) ∧
          (∀ k r n, r ∈ s.routes → r.sink = .output l k → r.domain = d → r.state.sounds = true → r.source = .storeOut n →
            (s.store n).binding = some d → formed k = routeStage ((s.store n).ring.headD 0#24) (gainAfter r)) ∧
          (∀ k, t.channel l k = channelAfter (s.channel l k) (formed k)) ∧
          (t.outLanes.get l).wires = .frame
            ((trimStage (formed .i0) (s.channel l .i0).trim ++ 0#8) ++ (trimStage (formed .i1) (s.channel l .i1).trim ++ 0#8) ++
              (trimStage (formed .i2) (s.channel l .i2).trim ++ 0#8) ++ (trimStage (formed .i3) (s.channel l .i3).trim ++ 0#8)) ∧
          t.bitClockHz? l = (s.frameRate? d).map (fun r => 128 * Rate.hz r) ∧
          (∀ n h, t.laneLevel l .bitClock n false = !t.laneLevel l .bitClock n true ∧
            t.laneLevel l .bitClock n h = t.laneLevel l .bitClock 0 h ∧ t.laneLevel l .frameSync n h = decide (n = 0)) ∧
          (∀ (k : Idx) j h, j < 32 → t.laneLevel l .data (32 * k.toNat + j) h =
            if j < 24 then (trimStage (formed k) (s.channel l k).trim).getLsbD (23 - j) else false)) ∧
      ∀ q, ∃ evs, t.queue q = s.queueAfter q evs ∧
        (evs.filter Event.ofLane).Perm
          ((Idx.all.filter fun i => (s.inLanes.get i).state != (t.inLanes.get i).state).map fun i =>
            .laneState (.input i) d (t.inLanes.get i).state)

/-- FRAME_BOUNDARY at a store bound to its domain (R108 to R113): one sample leaves the head when some route reads the store, and
an empty ring counts an underrun and starts an episode; then the sample the sink's holder offers is accepted at the tail, or, on a
full ring, acts by the overrun policy and starts an episode. A holder offers one only in RAMP_UP, LIVE or RAMP_DOWN (R60): the
route stage of its source sample (R58) at its gain after the step, with no trim. An underrun episode ends when the ring is no
longer empty, an overrun episode when it is no longer full; the sides of the marks follow the fill. The whole record is given but
for the binding (R107), and the store's events in their order. -/
def Obligations.BoundaryServesStores : Prop :=
  ∀ (s : State) (d : Domain) (rx : Quad LaneRx) (order : Picks) (n : Idx), s.running d = true →
    RoutesOrdered s → RoutesInRange s → SinksSound s →
    (s.store n).binding = some d → (s.store n).capacity ≠ 0 → StoreSound (s.store n) →
    ∃ t, exec (.frameBoundary d rx order) s = .next t ∧ ∃ offer : Option Sample,
      let good := fun (i : Idx) => match (rx.get i).syncs, (s.inLanes.get i).syncPhase with
        | [at_], some k => decide ((k + at_) % 128 = 0)
        | [_], none => true
        | _, _ => false
      let gainAfter := fun (r : Route) => (steppedGain r (match r.state with
        | .rampDown _ => 0
        | _ => r.target)).1
      ((∀ r ∈ s.routes, r.sink = .storeIn n → r.state.sounds = true → r.domain ≠ d) → offer = none) ∧
      (∀ r i j, r ∈ s.routes → r.sink = .storeIn n → r.domain = d → r.state.sounds = true → r.source = .input i j →
        offer = some
          (if (s.inLanes.get i).enabled && (s.inLanes.get i).binding == d
              && good i && (t.inLanes.get i).state == .running then
            routeStage ((rx.get i).frame.extractLsb' (104 - 32 * j.toNat) 24) (gainAfter r)
          else 0#24)) ∧
      (∀ r m, r ∈ s.routes → r.sink = .storeIn n → r.domain = d → r.state.sounds = true → r.source = .storeOut m →
        (s.store m).binding = some d → offer = some (routeStage ((s.store m).ring.headD 0#24) (gainAfter r))) ∧
      let st := s.store n
      let full := st.capacity * 256
      let reads := s.routes.any fun r => r.domain == d && r.state.sounds && r.source == .storeOut n
      let starved := reads && st.ring.isEmpty
      let out := reads && !st.ring.isEmpty
      let left := if reads then st.ring.tail else st.ring
      let room := decide (left.length < full)
      let refused := offer.isSome && !room && !st.keepNew
      let pushedOut := offer.isSome && !room && st.keepNew
      let one := fun (b : Bool) => if b then 1 else 0
      let ring := match offer with
        | none => left
        | some x => if room then left ++ [x] else if st.keepNew then left.tail ++ [x] else left
      (∃ binding, t.store n =
        { capacity := st.capacity, keepNew := st.keepNew, lowMark := st.lowMark, highMark := st.highMark
          readPos := (st.readPos + one out + one pushedOut) % full
          writePos := (st.writePos + one (offer.isSome && !refused)) % full
          ring := ring
          binding := binding
          underrunEp := (st.underrunEp || starved) && ring.isEmpty
          overrunEp := !out && (st.overrunEp || (offer.isSome && !room))
          aboveLow := decide (st.lowMark < ring.length)
          atHigh := decide (st.highMark ≤ ring.length)
          accepted := st.accepted + BitVec.ofNat 32 (one (offer.isSome && !refused))
          delivered := st.delivered + BitVec.ofNat 32 (one out)
          discarded := st.discarded + BitVec.ofNat 32 (one pushedOut)
          rejected := st.rejected + BitVec.ofNat 32 (one refused)
          underruns := if starved then min 65535 (st.underruns + 1) else st.underruns }) ∧
      ∀ q, ∃ evs, t.queue q = s.queueAfter q evs ∧
        (evs.filter fun ev => ev.store? == some n) =
          (if starved && !st.underrunEp then [.storeUnderrun n 0] else []) ++
          (if offer.isSome && !room && !st.overrunEp then [.storeOverrun n full] else []) ++ markEvents n st ring.length

/-! ### Sample stores -/

/-- CONFIGURE_STORE of a store no route uses, within the memory and with marks in order (R105, R106): the store takes the new
capacity, policy and marks and starts empty, and every other open port is told. It is refused, in this order, BAD_ARGUMENT for
the store, the capacity or the policy, STORE_BUSY, NO_MEMORY, and BAD_ARGUMENT for the marks. -/
def Obligations.ConfigureStoreEmptiesStore : Prop :=
  (∀ (s : State) (p : Port) (seq nb cap pol lh ll hh hl : Byte), s.serving p = true →
    3 < nb.toNat ∨ 64 < cap.toNat ∨ 1 < pol.toNat →
    exec (.configureStore p seq [nb, cap, pol, lh, ll, hh, hl]) s = .next (s.replied p seq .badArgument [] 11)) ∧
  (∀ (s : State) (p : Port) (seq nb cap pol lh ll hh hl : Byte) (n : Idx) (keep : Bool), s.serving p = true →
    store? nb = some n → yesNo? pol = some keep → cap.toNat ≤ 64 →
    let low := 256 * lh.toNat + ll.toNat
    let high := 256 * hh.toNat + hl.toNat
    let used := s.routes.any fun r => r.source == .storeOut n || r.sink == .storeIn n
    let others := (Idx.all.filter (· ≠ n)).foldl (fun k m => k + (s.store m).capacity) 0
    let i : Instr := .configureStore p seq [nb, cap, pol, lh, ll, hh, hl]
    (used = true → exec i s = .next (s.replied p seq .storeBusy [] 11)) ∧
    (used = false → 64 < others + cap.toNat → exec i s = .next (s.replied p seq .noMemory [] 11)) ∧
    (used = false → others + cap.toNat ≤ 64 → cap ≠ 0#8 → ¬(low < high ∧ high ≤ cap.toNat * 256) →
      exec i s = .next (s.replied p seq .badArgument [] 11)) ∧
    (used = false → others + cap.toNat ≤ 64 → (cap ≠ 0#8 → low < high ∧ high ≤ cap.toNat * 256) →
      (s.store n).binding = none →
      let marks := if cap = 0#8 then (0, 0) else (low, high)
      exec i s = .next
        (((s.setStore n
            { capacity := cap.toNat, keepNew := keep, lowMark := marks.1, highMark := marks.2, writePos := 0, readPos := 0,
              ring := [], binding := none, underrunEp := false, overrunEp := false, aboveLow := false, atHigh := false,
              accepted := 0, delivered := 0, discarded := 0, rejected := 0, underruns := 0 }).post
            [{ aud := .everyOpenBut p, ev := .storeConfigured n cap.toNat }]).replied p seq .ok
          ([nb, cap, pol] ++ bytes2 marks.1 ++ bytes2 marks.2 ++ [byteOf (64 - (others + cap.toNat))]) 11)))

/-- STORE_WRITE, STORE_READ and FLUSH_STORE on a configured store (R114 to R116): a write puts the samples that fit at the tail,
a read takes up to the number asked from the head, a flush drops them all. The whole record is given: the positions and the
totals, an underrun episode ended by a write that leaves a sample and an overrun episode ended by a read or a flush that leaves
room (R109, R111), and the sides of the marks; every open port is told of a mark crossed (R112) and of nothing else; only that
store, the queues and the port change. Their refusals, in order: BAD_ARGUMENT for the store number or the count,
STORE_UNCONFIGURED, and STORE_BUSY for a write while SIn has a holder and for a read while a holder has SOn as its source. -/
def Obligations.HostTransfersMoveSamples : Prop :=
  (∀ (s : State) (p : Port) (seq nb c : Byte) (bytes : List Byte), s.serving p = true → bytes.length = 3 * c.toNat →
    bytes.length ≤ 248 →
    let write := fun (res : Result) =>
      exec (.storeWrite p seq ([nb, c] ++ bytes)) s = .next (s.replied p seq res [] (6 + bytes.length))
    let read := fun (res : Result) => exec (.storeRead p seq [nb, c]) s = .next (s.replied p seq res [] 6)
    let flush := fun (res : Result) => exec (.flushStore p seq [nb]) s = .next (s.replied p seq res [] 5)
    (3 < nb.toNat ∨ c = 0#8 ∨ 80 < c.toNat → write .badArgument ∧ read .badArgument) ∧
    (3 < nb.toNat → flush .badArgument) ∧
    (∀ n, store? nb = some n →
      ((s.store n).capacity = 0 → flush .storeUnconfigured) ∧
      (1 ≤ c.toNat → c.toNat ≤ 80 →
        ((s.store n).capacity = 0 → write .storeUnconfigured ∧ read .storeUnconfigured) ∧
        ((s.store n).capacity ≠ 0 → (s.sinkEntry (.storeIn n)).holder ≠ none → write .storeBusy) ∧
        ((s.store n).capacity ≠ 0 → s.routes.any (fun r => r.source == .storeOut n && r.state.holds) = true →
          read .storeBusy)))) ∧
  (∀ (s : State) (p : Port) (seq c nb : Byte), s.serving p = true → c = 0#8 ∨ 80 < c.toNat →
    exec (.storeRead p seq [nb, c]) s = .next (s.replied p seq .badArgument [] 6)) ∧
  ∀ (s : State) (p : Port) (seq nb : Byte) (n : Idx), s.serving p = true → store? nb = some n →
    (s.store n).capacity ≠ 0 → StoreSound (s.store n) →
    let st := s.store n
    let full := st.capacity * 256
    let onlyStore := fun (t : State) (fill : Nat) =>
      (∀ m, m ≠ n → t.store m = s.store m) ∧ (∀ q, t.queue q = s.queueAfter q (markEvents n st fill)) ∧
      { t with stores := s.stores, queues := s.queues, ports := s.ports } = s
    (∀ (c : Byte) (bytes : List Byte), 1 ≤ c.toNat → c.toNat ≤ 80 → bytes.length = 3 * c.toNat →
      (s.sinkEntry (.storeIn n)).holder = none →
      let k := min c.toNat (full - st.ring.length)
      let ring := st.ring ++ (samplesOf bytes).take k
      ∃ t, exec (.storeWrite p seq ([nb, c] ++ bytes)) s = .next t ∧ onlyStore t ring.length ∧
        t.store n =
          { st with
            ring := ring
            writePos := (st.writePos + k) % full
            underrunEp := st.underrunEp && ring.isEmpty
            aboveLow := decide (st.lowMark < ring.length)
            atHigh := decide (st.highMark ≤ ring.length)
            accepted := st.accepted + BitVec.ofNat 32 k } ∧
        (t.port p).holder = .executing
          { seq := seq, result := .ok, payload := [nb, byteOf k] ++ bytes2 ring.length }) ∧
    (∀ c : Byte, 1 ≤ c.toNat → c.toNat ≤ 80 → s.feedCount (.storeOut n) = 0 →
      let k := min c.toNat st.ring.length
      let ring := st.ring.drop k
      ∃ t, exec (.storeRead p seq [nb, c]) s = .next t ∧ onlyStore t ring.length ∧
        t.store n =
          { st with
            ring := ring
            readPos := (st.readPos + k) % full
            overrunEp := false
            aboveLow := decide (st.lowMark < ring.length)
            atHigh := decide (st.highMark ≤ ring.length)
            delivered := st.delivered + BitVec.ofNat 32 k } ∧
        (t.port p).holder = .executing
          { seq := seq, result := .ok,
            payload := [nb, c, byteOf k] ++ bytes2 ring.length ++ bytes4 (t.store n).delivered.toNat
              ++ (st.ring.take k).flatMap sampleBytes }) ∧
    (∃ t, exec (.flushStore p seq [nb]) s = .next t ∧ onlyStore t 0 ∧
      t.store n =
        { st with
          ring := []
          readPos := st.writePos
          overrunEp := false
          aboveLow := false
          atHigh := false
          discarded := st.discarded + BitVec.ofNat 32 st.ring.length } ∧
      (t.port p).holder = .executing { seq := seq, result := .ok, payload := [nb] ++ bytes2 st.ring.length })

/-! ### Event queues -/

/-- A queue takes an event in one of the three ways of R138, and ACK_EVENTS removes the entry named and those ahead of it
(R141). -/
def Obligations.QueueAppendsAndAcknowledges : Prop :=
  (∀ (q : EventQueue) (ev : Event), QueueSound q →
    (q.marker? = none → q.entries.length < 31 →
      q.put ev = { entries := q.entries ++ [{ seq := q.nextSeq, ev := ev }], nextSeq := q.nextSeq + 1 }) ∧
    (q.marker? = none → q.entries.length = 31 →
      q.put ev = { entries := q.entries ++ [{ seq := q.nextSeq, ev := .lost 1 }], nextSeq := q.nextSeq + 1 }) ∧
    (∀ k c front, q.entries = front ++ [{ seq := k, ev := .lost c }] →
      q.put ev = { entries := front ++ [{ seq := k, ev := .lost (min 65535 (c + 1)) }], nextSeq := q.nextSeq })) ∧
  (∀ (s : State) (p : Port) (seq hi lo : Byte) (front back : List Entry) (e : Entry), s.serving p = true →
    QueueSound (s.queue p) → (s.queue p).entries = front ++ e :: back → e.seq.toNat = 256 * hi.toNat + lo.toNat →
    let lost := match e.ev with
      | .lost c => some c
      | _ => none
    exec (.ackEvents p seq [hi, lo]) s = .next
      (({ s with queues := s.queues.set p { entries := back, nextSeq := (s.queue p).nextSeq } } : State).replied p seq .ok
        ([byteOf (front.length + 1), byteOf back.length, flagByte lost.isSome] ++ bytes2 (lost.getD 0)) 6)) ∧
  (∀ (s : State) (p : Port) (seq hi lo : Byte), s.serving p = true →
    (∀ e ∈ (s.queue p).entries, e.seq.toNat ≠ 256 * hi.toNat + lo.toNat) →
    exec (.ackEvents p seq [hi, lo]) s = .next (s.replied p seq .badArgument [] 6))

/-! ### The whole machine -/

/-- Each kind of record changes only at the commands its chapter names: tags at SET_TAG (R87), trims at SET_TRIM and meters and
clip counts at RESET_METER and the frames (R65), frame counts at the frames and at a lock, rate codes at SET_RATE (R83), epochs
at OPEN_SESSION (R123), the shape of a store at CONFIGURE_STORE (R102), lane bindings at SET_LANE; and all of them at device
reset. -/
def Obligations.RecordsChangeOnlyAtTheirCommands : Prop :=
  ∀ (c : Instr) (s t : State), exec c s = .next t → c ≠ .deviceReset →
    ((∀ p q ps, c ≠ .setTag p q ps) → ∀ e, t.tagOf e = s.tagOf e) ∧
    ((∀ p q ps, c ≠ .setTrim p q ps) → ∀ l k, (t.channel l k).trim = (s.channel l k).trim) ∧
    ((∀ p q ps, c ≠ .resetMeter p q ps) → (∀ d rx o, c ≠ .frameBoundary d rx o) →
      ∀ l k, ((t.channel l k).peak, (t.channel l k).clips) = ((s.channel l k).peak, (s.channel l k).clips)) ∧
    ((∀ d rx o, c ≠ .frameBoundary d rx o) → (∀ d, c ≠ .lockComplete d) → ∀ d, t.frameCount d = s.frameCount d) ∧
    ((∀ p q ps, c ≠ .setRate p q ps) → ∀ d, t.rateCode d = s.rateCode d) ∧
    ((∀ p q ps, c ≠ .openSession p q ps) → ∀ p, (t.session p).epoch = (s.session p).epoch) ∧
    ((∀ p q ps, c ≠ .configureStore p q ps) → ∀ n,
      ((t.store n).capacity, (t.store n).keepNew, (t.store n).lowMark, (t.store n).highMark) =
        ((s.store n).capacity, (s.store n).keepNew, (s.store n).lowMark, (s.store n).highMark)) ∧
    ((∀ p q ps, c ≠ .setLane p q ps) → ∀ l, ((t.lane l).enabled, (t.lane l).binding) = ((s.lane l).enabled, (s.lane l).binding))

end
end

