-- ==== Sys2Proof/Laws/State.lean ====
section
/-! SUPPORT. The fields of a state after each named update: one lemma per field per update, true by rfl. -/

namespace Sys2Proof.Machine.State

/-! ### setPort -/

@[simp] theorem setPort_pending (s : State) (p : Port) (u : PortUnit) : (s.setPort p u).pending = s.pending := rfl
@[simp] theorem setPort_resetHeld (s : State) (p : Port) (u : PortUnit) : (s.setPort p u).resetHeld = s.resetHeld := rfl
@[simp] theorem setPort_sessions (s : State) (p : Port) (u : PortUnit) : (s.setPort p u).sessions = s.sessions := rfl
@[simp] theorem setPort_queues (s : State) (p : Port) (u : PortUnit) : (s.setPort p u).queues = s.queues := rfl
@[simp] theorem setPort_routes (s : State) (p : Port) (u : PortUnit) : (s.setPort p u).routes = s.routes := rfl
@[simp] theorem setPort_claims (s : State) (p : Port) (u : PortUnit) : (s.setPort p u).claims = s.claims := rfl
@[simp] theorem setPort_sources (s : State) (p : Port) (u : PortUnit) : (s.setPort p u).sources = s.sources := rfl
@[simp] theorem setPort_sinks (s : State) (p : Port) (u : PortUnit) : (s.setPort p u).sinks = s.sinks := rfl
@[simp] theorem setPort_inLanes (s : State) (p : Port) (u : PortUnit) : (s.setPort p u).inLanes = s.inLanes := rfl
@[simp] theorem setPort_outLanes (s : State) (p : Port) (u : PortUnit) : (s.setPort p u).outLanes = s.outLanes := rfl
@[simp] theorem setPort_fa (s : State) (p : Port) (u : PortUnit) : (s.setPort p u).fa = s.fa := rfl
@[simp] theorem setPort_fb (s : State) (p : Port) (u : PortUnit) : (s.setPort p u).fb = s.fb := rfl
@[simp] theorem setPort_fx (s : State) (p : Port) (u : PortUnit) : (s.setPort p u).fx = s.fx := rfl
@[simp] theorem setPort_monitor (s : State) (p : Port) (u : PortUnit) : (s.setPort p u).monitor = s.monitor := rfl
@[simp] theorem setPort_routeReports (s : State) (p : Port) (u : PortUnit) : (s.setPort p u).routeReports = s.routeReports := rfl
@[simp] theorem setPort_laneReports (s : State) (p : Port) (u : PortUnit) : (s.setPort p u).laneReports = s.laneReports := rfl
@[simp] theorem setPort_channels (s : State) (p : Port) (u : PortUnit) : (s.setPort p u).channels = s.channels := rfl
@[simp] theorem setPort_stores (s : State) (p : Port) (u : PortUnit) : (s.setPort p u).stores = s.stores := rfl
@[simp] theorem setPort_freeDraws (s : State) (p : Port) (u : PortUnit) : (s.setPort p u).freeDraws = s.freeDraws := rfl

/-! ### setSession -/

@[simp] theorem setSession_pending (s : State) (p : Port) (x : Session) : (s.setSession p x).pending = s.pending := rfl
@[simp] theorem setSession_resetHeld (s : State) (p : Port) (x : Session) : (s.setSession p x).resetHeld = s.resetHeld := rfl
@[simp] theorem setSession_ports (s : State) (p : Port) (x : Session) : (s.setSession p x).ports = s.ports := rfl
@[simp] theorem setSession_queues (s : State) (p : Port) (x : Session) : (s.setSession p x).queues = s.queues := rfl
@[simp] theorem setSession_routes (s : State) (p : Port) (x : Session) : (s.setSession p x).routes = s.routes := rfl
@[simp] theorem setSession_claims (s : State) (p : Port) (x : Session) : (s.setSession p x).claims = s.claims := rfl
@[simp] theorem setSession_sources (s : State) (p : Port) (x : Session) : (s.setSession p x).sources = s.sources := rfl
@[simp] theorem setSession_sinks (s : State) (p : Port) (x : Session) : (s.setSession p x).sinks = s.sinks := rfl
@[simp] theorem setSession_inLanes (s : State) (p : Port) (x : Session) : (s.setSession p x).inLanes = s.inLanes := rfl
@[simp] theorem setSession_outLanes (s : State) (p : Port) (x : Session) : (s.setSession p x).outLanes = s.outLanes := rfl
@[simp] theorem setSession_fa (s : State) (p : Port) (x : Session) : (s.setSession p x).fa = s.fa := rfl
@[simp] theorem setSession_fb (s : State) (p : Port) (x : Session) : (s.setSession p x).fb = s.fb := rfl
@[simp] theorem setSession_fx (s : State) (p : Port) (x : Session) : (s.setSession p x).fx = s.fx := rfl
@[simp] theorem setSession_monitor (s : State) (p : Port) (x : Session) : (s.setSession p x).monitor = s.monitor := rfl
@[simp] theorem setSession_routeReports (s : State) (p : Port) (x : Session) : (s.setSession p x).routeReports = s.routeReports := rfl
@[simp] theorem setSession_laneReports (s : State) (p : Port) (x : Session) : (s.setSession p x).laneReports = s.laneReports := rfl
@[simp] theorem setSession_channels (s : State) (p : Port) (x : Session) : (s.setSession p x).channels = s.channels := rfl
@[simp] theorem setSession_stores (s : State) (p : Port) (x : Session) : (s.setSession p x).stores = s.stores := rfl
@[simp] theorem setSession_freeDraws (s : State) (p : Port) (x : Session) : (s.setSession p x).freeDraws = s.freeDraws := rfl

/-! ### setQueue -/

@[simp] theorem setQueue_pending (s : State) (p : Port) (q : EventQueue) : (s.setQueue p q).pending = s.pending := rfl
@[simp] theorem setQueue_resetHeld (s : State) (p : Port) (q : EventQueue) : (s.setQueue p q).resetHeld = s.resetHeld := rfl
@[simp] theorem setQueue_ports (s : State) (p : Port) (q : EventQueue) : (s.setQueue p q).ports = s.ports := rfl
@[simp] theorem setQueue_sessions (s : State) (p : Port) (q : EventQueue) : (s.setQueue p q).sessions = s.sessions := rfl
@[simp] theorem setQueue_routes (s : State) (p : Port) (q : EventQueue) : (s.setQueue p q).routes = s.routes := rfl
@[simp] theorem setQueue_claims (s : State) (p : Port) (q : EventQueue) : (s.setQueue p q).claims = s.claims := rfl
@[simp] theorem setQueue_sources (s : State) (p : Port) (q : EventQueue) : (s.setQueue p q).sources = s.sources := rfl
@[simp] theorem setQueue_sinks (s : State) (p : Port) (q : EventQueue) : (s.setQueue p q).sinks = s.sinks := rfl
@[simp] theorem setQueue_inLanes (s : State) (p : Port) (q : EventQueue) : (s.setQueue p q).inLanes = s.inLanes := rfl
@[simp] theorem setQueue_outLanes (s : State) (p : Port) (q : EventQueue) : (s.setQueue p q).outLanes = s.outLanes := rfl
@[simp] theorem setQueue_fa (s : State) (p : Port) (q : EventQueue) : (s.setQueue p q).fa = s.fa := rfl
@[simp] theorem setQueue_fb (s : State) (p : Port) (q : EventQueue) : (s.setQueue p q).fb = s.fb := rfl
@[simp] theorem setQueue_fx (s : State) (p : Port) (q : EventQueue) : (s.setQueue p q).fx = s.fx := rfl
@[simp] theorem setQueue_monitor (s : State) (p : Port) (q : EventQueue) : (s.setQueue p q).monitor = s.monitor := rfl
@[simp] theorem setQueue_routeReports (s : State) (p : Port) (q : EventQueue) : (s.setQueue p q).routeReports = s.routeReports := rfl
@[simp] theorem setQueue_laneReports (s : State) (p : Port) (q : EventQueue) : (s.setQueue p q).laneReports = s.laneReports := rfl
@[simp] theorem setQueue_channels (s : State) (p : Port) (q : EventQueue) : (s.setQueue p q).channels = s.channels := rfl
@[simp] theorem setQueue_stores (s : State) (p : Port) (q : EventQueue) : (s.setQueue p q).stores = s.stores := rfl
@[simp] theorem setQueue_freeDraws (s : State) (p : Port) (q : EventQueue) : (s.setQueue p q).freeDraws = s.freeDraws := rfl

/-! ### setClaim -/

@[simp] theorem setClaim_pending (s : State) (t : Sink) (ids : List Nat) : (s.setClaim t ids).pending = s.pending := rfl
@[simp] theorem setClaim_resetHeld (s : State) (t : Sink) (ids : List Nat) : (s.setClaim t ids).resetHeld = s.resetHeld := rfl
@[simp] theorem setClaim_ports (s : State) (t : Sink) (ids : List Nat) : (s.setClaim t ids).ports = s.ports := rfl
@[simp] theorem setClaim_sessions (s : State) (t : Sink) (ids : List Nat) : (s.setClaim t ids).sessions = s.sessions := rfl
@[simp] theorem setClaim_queues (s : State) (t : Sink) (ids : List Nat) : (s.setClaim t ids).queues = s.queues := rfl
@[simp] theorem setClaim_routes (s : State) (t : Sink) (ids : List Nat) : (s.setClaim t ids).routes = s.routes := rfl
@[simp] theorem setClaim_sources (s : State) (t : Sink) (ids : List Nat) : (s.setClaim t ids).sources = s.sources := rfl
@[simp] theorem setClaim_sinks (s : State) (t : Sink) (ids : List Nat) : (s.setClaim t ids).sinks = s.sinks := rfl
@[simp] theorem setClaim_inLanes (s : State) (t : Sink) (ids : List Nat) : (s.setClaim t ids).inLanes = s.inLanes := rfl
@[simp] theorem setClaim_outLanes (s : State) (t : Sink) (ids : List Nat) : (s.setClaim t ids).outLanes = s.outLanes := rfl
@[simp] theorem setClaim_fa (s : State) (t : Sink) (ids : List Nat) : (s.setClaim t ids).fa = s.fa := rfl
@[simp] theorem setClaim_fb (s : State) (t : Sink) (ids : List Nat) : (s.setClaim t ids).fb = s.fb := rfl
@[simp] theorem setClaim_fx (s : State) (t : Sink) (ids : List Nat) : (s.setClaim t ids).fx = s.fx := rfl
@[simp] theorem setClaim_monitor (s : State) (t : Sink) (ids : List Nat) : (s.setClaim t ids).monitor = s.monitor := rfl
@[simp] theorem setClaim_routeReports (s : State) (t : Sink) (ids : List Nat) : (s.setClaim t ids).routeReports = s.routeReports := rfl
@[simp] theorem setClaim_laneReports (s : State) (t : Sink) (ids : List Nat) : (s.setClaim t ids).laneReports = s.laneReports := rfl
@[simp] theorem setClaim_channels (s : State) (t : Sink) (ids : List Nat) : (s.setClaim t ids).channels = s.channels := rfl
@[simp] theorem setClaim_stores (s : State) (t : Sink) (ids : List Nat) : (s.setClaim t ids).stores = s.stores := rfl
@[simp] theorem setClaim_freeDraws (s : State) (t : Sink) (ids : List Nat) : (s.setClaim t ids).freeDraws = s.freeDraws := rfl

/-! ### setSourceEntry -/

@[simp] theorem setSourceEntry_pending (s : State) (e : Source) (x : SourceEntry) : (s.setSourceEntry e x).pending = s.pending := rfl
@[simp] theorem setSourceEntry_resetHeld (s : State) (e : Source) (x : SourceEntry) : (s.setSourceEntry e x).resetHeld = s.resetHeld := rfl
@[simp] theorem setSourceEntry_ports (s : State) (e : Source) (x : SourceEntry) : (s.setSourceEntry e x).ports = s.ports := rfl
@[simp] theorem setSourceEntry_sessions (s : State) (e : Source) (x : SourceEntry) : (s.setSourceEntry e x).sessions = s.sessions := rfl
@[simp] theorem setSourceEntry_queues (s : State) (e : Source) (x : SourceEntry) : (s.setSourceEntry e x).queues = s.queues := rfl
@[simp] theorem setSourceEntry_routes (s : State) (e : Source) (x : SourceEntry) : (s.setSourceEntry e x).routes = s.routes := rfl
@[simp] theorem setSourceEntry_claims (s : State) (e : Source) (x : SourceEntry) : (s.setSourceEntry e x).claims = s.claims := rfl
@[simp] theorem setSourceEntry_sinks (s : State) (e : Source) (x : SourceEntry) : (s.setSourceEntry e x).sinks = s.sinks := rfl
@[simp] theorem setSourceEntry_inLanes (s : State) (e : Source) (x : SourceEntry) : (s.setSourceEntry e x).inLanes = s.inLanes := rfl
@[simp] theorem setSourceEntry_outLanes (s : State) (e : Source) (x : SourceEntry) : (s.setSourceEntry e x).outLanes = s.outLanes := rfl
@[simp] theorem setSourceEntry_fa (s : State) (e : Source) (x : SourceEntry) : (s.setSourceEntry e x).fa = s.fa := rfl
@[simp] theorem setSourceEntry_fb (s : State) (e : Source) (x : SourceEntry) : (s.setSourceEntry e x).fb = s.fb := rfl
@[simp] theorem setSourceEntry_fx (s : State) (e : Source) (x : SourceEntry) : (s.setSourceEntry e x).fx = s.fx := rfl
@[simp] theorem setSourceEntry_monitor (s : State) (e : Source) (x : SourceEntry) : (s.setSourceEntry e x).monitor = s.monitor := rfl
@[simp] theorem setSourceEntry_routeReports (s : State) (e : Source) (x : SourceEntry) : (s.setSourceEntry e x).routeReports = s.routeReports := rfl
@[simp] theorem setSourceEntry_laneReports (s : State) (e : Source) (x : SourceEntry) : (s.setSourceEntry e x).laneReports = s.laneReports := rfl
@[simp] theorem setSourceEntry_channels (s : State) (e : Source) (x : SourceEntry) : (s.setSourceEntry e x).channels = s.channels := rfl
@[simp] theorem setSourceEntry_stores (s : State) (e : Source) (x : SourceEntry) : (s.setSourceEntry e x).stores = s.stores := rfl
@[simp] theorem setSourceEntry_freeDraws (s : State) (e : Source) (x : SourceEntry) : (s.setSourceEntry e x).freeDraws = s.freeDraws := rfl

/-! ### setSinkEntry -/

@[simp] theorem setSinkEntry_pending (s : State) (t : Sink) (x : SinkEntry) : (s.setSinkEntry t x).pending = s.pending := rfl
@[simp] theorem setSinkEntry_resetHeld (s : State) (t : Sink) (x : SinkEntry) : (s.setSinkEntry t x).resetHeld = s.resetHeld := rfl
@[simp] theorem setSinkEntry_ports (s : State) (t : Sink) (x : SinkEntry) : (s.setSinkEntry t x).ports = s.ports := rfl
@[simp] theorem setSinkEntry_sessions (s : State) (t : Sink) (x : SinkEntry) : (s.setSinkEntry t x).sessions = s.sessions := rfl
@[simp] theorem setSinkEntry_queues (s : State) (t : Sink) (x : SinkEntry) : (s.setSinkEntry t x).queues = s.queues := rfl
@[simp] theorem setSinkEntry_routes (s : State) (t : Sink) (x : SinkEntry) : (s.setSinkEntry t x).routes = s.routes := rfl
@[simp] theorem setSinkEntry_claims (s : State) (t : Sink) (x : SinkEntry) : (s.setSinkEntry t x).claims = s.claims := rfl
@[simp] theorem setSinkEntry_sources (s : State) (t : Sink) (x : SinkEntry) : (s.setSinkEntry t x).sources = s.sources := rfl
@[simp] theorem setSinkEntry_inLanes (s : State) (t : Sink) (x : SinkEntry) : (s.setSinkEntry t x).inLanes = s.inLanes := rfl
@[simp] theorem setSinkEntry_outLanes (s : State) (t : Sink) (x : SinkEntry) : (s.setSinkEntry t x).outLanes = s.outLanes := rfl
@[simp] theorem setSinkEntry_fa (s : State) (t : Sink) (x : SinkEntry) : (s.setSinkEntry t x).fa = s.fa := rfl
@[simp] theorem setSinkEntry_fb (s : State) (t : Sink) (x : SinkEntry) : (s.setSinkEntry t x).fb = s.fb := rfl
@[simp] theorem setSinkEntry_fx (s : State) (t : Sink) (x : SinkEntry) : (s.setSinkEntry t x).fx = s.fx := rfl
@[simp] theorem setSinkEntry_monitor (s : State) (t : Sink) (x : SinkEntry) : (s.setSinkEntry t x).monitor = s.monitor := rfl
@[simp] theorem setSinkEntry_routeReports (s : State) (t : Sink) (x : SinkEntry) : (s.setSinkEntry t x).routeReports = s.routeReports := rfl
@[simp] theorem setSinkEntry_laneReports (s : State) (t : Sink) (x : SinkEntry) : (s.setSinkEntry t x).laneReports = s.laneReports := rfl
@[simp] theorem setSinkEntry_channels (s : State) (t : Sink) (x : SinkEntry) : (s.setSinkEntry t x).channels = s.channels := rfl
@[simp] theorem setSinkEntry_stores (s : State) (t : Sink) (x : SinkEntry) : (s.setSinkEntry t x).stores = s.stores := rfl
@[simp] theorem setSinkEntry_freeDraws (s : State) (t : Sink) (x : SinkEntry) : (s.setSinkEntry t x).freeDraws = s.freeDraws := rfl

/-! ### setStore -/

@[simp] theorem setStore_pending (s : State) (n : Idx) (x : Store) : (s.setStore n x).pending = s.pending := rfl
@[simp] theorem setStore_resetHeld (s : State) (n : Idx) (x : Store) : (s.setStore n x).resetHeld = s.resetHeld := rfl
@[simp] theorem setStore_ports (s : State) (n : Idx) (x : Store) : (s.setStore n x).ports = s.ports := rfl
@[simp] theorem setStore_sessions (s : State) (n : Idx) (x : Store) : (s.setStore n x).sessions = s.sessions := rfl
@[simp] theorem setStore_queues (s : State) (n : Idx) (x : Store) : (s.setStore n x).queues = s.queues := rfl
@[simp] theorem setStore_routes (s : State) (n : Idx) (x : Store) : (s.setStore n x).routes = s.routes := rfl
@[simp] theorem setStore_claims (s : State) (n : Idx) (x : Store) : (s.setStore n x).claims = s.claims := rfl
@[simp] theorem setStore_sources (s : State) (n : Idx) (x : Store) : (s.setStore n x).sources = s.sources := rfl
@[simp] theorem setStore_sinks (s : State) (n : Idx) (x : Store) : (s.setStore n x).sinks = s.sinks := rfl
@[simp] theorem setStore_inLanes (s : State) (n : Idx) (x : Store) : (s.setStore n x).inLanes = s.inLanes := rfl
@[simp] theorem setStore_outLanes (s : State) (n : Idx) (x : Store) : (s.setStore n x).outLanes = s.outLanes := rfl
@[simp] theorem setStore_fa (s : State) (n : Idx) (x : Store) : (s.setStore n x).fa = s.fa := rfl
@[simp] theorem setStore_fb (s : State) (n : Idx) (x : Store) : (s.setStore n x).fb = s.fb := rfl
@[simp] theorem setStore_fx (s : State) (n : Idx) (x : Store) : (s.setStore n x).fx = s.fx := rfl
@[simp] theorem setStore_monitor (s : State) (n : Idx) (x : Store) : (s.setStore n x).monitor = s.monitor := rfl
@[simp] theorem setStore_routeReports (s : State) (n : Idx) (x : Store) : (s.setStore n x).routeReports = s.routeReports := rfl
@[simp] theorem setStore_laneReports (s : State) (n : Idx) (x : Store) : (s.setStore n x).laneReports = s.laneReports := rfl
@[simp] theorem setStore_channels (s : State) (n : Idx) (x : Store) : (s.setStore n x).channels = s.channels := rfl
@[simp] theorem setStore_freeDraws (s : State) (n : Idx) (x : Store) : (s.setStore n x).freeDraws = s.freeDraws := rfl

/-! ### setChannel -/

@[simp] theorem setChannel_pending (s : State) (l k : Idx) (x : Channel) : (s.setChannel l k x).pending = s.pending := rfl
@[simp] theorem setChannel_resetHeld (s : State) (l k : Idx) (x : Channel) : (s.setChannel l k x).resetHeld = s.resetHeld := rfl
@[simp] theorem setChannel_ports (s : State) (l k : Idx) (x : Channel) : (s.setChannel l k x).ports = s.ports := rfl
@[simp] theorem setChannel_sessions (s : State) (l k : Idx) (x : Channel) : (s.setChannel l k x).sessions = s.sessions := rfl
@[simp] theorem setChannel_queues (s : State) (l k : Idx) (x : Channel) : (s.setChannel l k x).queues = s.queues := rfl
@[simp] theorem setChannel_routes (s : State) (l k : Idx) (x : Channel) : (s.setChannel l k x).routes = s.routes := rfl
@[simp] theorem setChannel_claims (s : State) (l k : Idx) (x : Channel) : (s.setChannel l k x).claims = s.claims := rfl
@[simp] theorem setChannel_sources (s : State) (l k : Idx) (x : Channel) : (s.setChannel l k x).sources = s.sources := rfl
@[simp] theorem setChannel_sinks (s : State) (l k : Idx) (x : Channel) : (s.setChannel l k x).sinks = s.sinks := rfl
@[simp] theorem setChannel_inLanes (s : State) (l k : Idx) (x : Channel) : (s.setChannel l k x).inLanes = s.inLanes := rfl
@[simp] theorem setChannel_outLanes (s : State) (l k : Idx) (x : Channel) : (s.setChannel l k x).outLanes = s.outLanes := rfl
@[simp] theorem setChannel_fa (s : State) (l k : Idx) (x : Channel) : (s.setChannel l k x).fa = s.fa := rfl
@[simp] theorem setChannel_fb (s : State) (l k : Idx) (x : Channel) : (s.setChannel l k x).fb = s.fb := rfl
@[simp] theorem setChannel_fx (s : State) (l k : Idx) (x : Channel) : (s.setChannel l k x).fx = s.fx := rfl
@[simp] theorem setChannel_monitor (s : State) (l k : Idx) (x : Channel) : (s.setChannel l k x).monitor = s.monitor := rfl
@[simp] theorem setChannel_routeReports (s : State) (l k : Idx) (x : Channel) : (s.setChannel l k x).routeReports = s.routeReports := rfl
@[simp] theorem setChannel_laneReports (s : State) (l k : Idx) (x : Channel) : (s.setChannel l k x).laneReports = s.laneReports := rfl
@[simp] theorem setChannel_stores (s : State) (l k : Idx) (x : Channel) : (s.setChannel l k x).stores = s.stores := rfl
@[simp] theorem setChannel_freeDraws (s : State) (l k : Idx) (x : Channel) : (s.setChannel l k x).freeDraws = s.freeDraws := rfl

/-! ### setRoute -/

@[simp] theorem setRoute_pending (s : State) (r : Route) : (s.setRoute r).pending = s.pending := rfl
@[simp] theorem setRoute_resetHeld (s : State) (r : Route) : (s.setRoute r).resetHeld = s.resetHeld := rfl
@[simp] theorem setRoute_ports (s : State) (r : Route) : (s.setRoute r).ports = s.ports := rfl
@[simp] theorem setRoute_sessions (s : State) (r : Route) : (s.setRoute r).sessions = s.sessions := rfl
@[simp] theorem setRoute_queues (s : State) (r : Route) : (s.setRoute r).queues = s.queues := rfl
@[simp] theorem setRoute_claims (s : State) (r : Route) : (s.setRoute r).claims = s.claims := rfl
@[simp] theorem setRoute_sources (s : State) (r : Route) : (s.setRoute r).sources = s.sources := rfl
@[simp] theorem setRoute_sinks (s : State) (r : Route) : (s.setRoute r).sinks = s.sinks := rfl
@[simp] theorem setRoute_inLanes (s : State) (r : Route) : (s.setRoute r).inLanes = s.inLanes := rfl
@[simp] theorem setRoute_outLanes (s : State) (r : Route) : (s.setRoute r).outLanes = s.outLanes := rfl
@[simp] theorem setRoute_fa (s : State) (r : Route) : (s.setRoute r).fa = s.fa := rfl
@[simp] theorem setRoute_fb (s : State) (r : Route) : (s.setRoute r).fb = s.fb := rfl
@[simp] theorem setRoute_fx (s : State) (r : Route) : (s.setRoute r).fx = s.fx := rfl
@[simp] theorem setRoute_monitor (s : State) (r : Route) : (s.setRoute r).monitor = s.monitor := rfl
@[simp] theorem setRoute_routeReports (s : State) (r : Route) : (s.setRoute r).routeReports = s.routeReports := rfl
@[simp] theorem setRoute_laneReports (s : State) (r : Route) : (s.setRoute r).laneReports = s.laneReports := rfl
@[simp] theorem setRoute_channels (s : State) (r : Route) : (s.setRoute r).channels = s.channels := rfl
@[simp] theorem setRoute_stores (s : State) (r : Route) : (s.setRoute r).stores = s.stores := rfl
@[simp] theorem setRoute_freeDraws (s : State) (r : Route) : (s.setRoute r).freeDraws = s.freeDraws := rfl

/-! ### dropRoute -/

@[simp] theorem dropRoute_pending (s : State) (id : Nat) : (s.dropRoute id).pending = s.pending := rfl
@[simp] theorem dropRoute_resetHeld (s : State) (id : Nat) : (s.dropRoute id).resetHeld = s.resetHeld := rfl
@[simp] theorem dropRoute_ports (s : State) (id : Nat) : (s.dropRoute id).ports = s.ports := rfl
@[simp] theorem dropRoute_sessions (s : State) (id : Nat) : (s.dropRoute id).sessions = s.sessions := rfl
@[simp] theorem dropRoute_queues (s : State) (id : Nat) : (s.dropRoute id).queues = s.queues := rfl
@[simp] theorem dropRoute_claims (s : State) (id : Nat) : (s.dropRoute id).claims = s.claims := rfl
@[simp] theorem dropRoute_sources (s : State) (id : Nat) : (s.dropRoute id).sources = s.sources := rfl
@[simp] theorem dropRoute_sinks (s : State) (id : Nat) : (s.dropRoute id).sinks = s.sinks := rfl
@[simp] theorem dropRoute_inLanes (s : State) (id : Nat) : (s.dropRoute id).inLanes = s.inLanes := rfl
@[simp] theorem dropRoute_outLanes (s : State) (id : Nat) : (s.dropRoute id).outLanes = s.outLanes := rfl
@[simp] theorem dropRoute_fa (s : State) (id : Nat) : (s.dropRoute id).fa = s.fa := rfl
@[simp] theorem dropRoute_fb (s : State) (id : Nat) : (s.dropRoute id).fb = s.fb := rfl
@[simp] theorem dropRoute_fx (s : State) (id : Nat) : (s.dropRoute id).fx = s.fx := rfl
@[simp] theorem dropRoute_monitor (s : State) (id : Nat) : (s.dropRoute id).monitor = s.monitor := rfl
@[simp] theorem dropRoute_routeReports (s : State) (id : Nat) : (s.dropRoute id).routeReports = s.routeReports := rfl
@[simp] theorem dropRoute_laneReports (s : State) (id : Nat) : (s.dropRoute id).laneReports = s.laneReports := rfl
@[simp] theorem dropRoute_channels (s : State) (id : Nat) : (s.dropRoute id).channels = s.channels := rfl
@[simp] theorem dropRoute_stores (s : State) (id : Nat) : (s.dropRoute id).stores = s.stores := rfl
@[simp] theorem dropRoute_freeDraws (s : State) (id : Nat) : (s.dropRoute id).freeDraws = s.freeDraws := rfl

/-! ### setFx -/

@[simp] theorem setFx_pending (s : State) (st : FxState) : (s.setFx st).pending = s.pending := rfl
@[simp] theorem setFx_resetHeld (s : State) (st : FxState) : (s.setFx st).resetHeld = s.resetHeld := rfl
@[simp] theorem setFx_ports (s : State) (st : FxState) : (s.setFx st).ports = s.ports := rfl
@[simp] theorem setFx_sessions (s : State) (st : FxState) : (s.setFx st).sessions = s.sessions := rfl
@[simp] theorem setFx_queues (s : State) (st : FxState) : (s.setFx st).queues = s.queues := rfl
@[simp] theorem setFx_routes (s : State) (st : FxState) : (s.setFx st).routes = s.routes := rfl
@[simp] theorem setFx_claims (s : State) (st : FxState) : (s.setFx st).claims = s.claims := rfl
@[simp] theorem setFx_sources (s : State) (st : FxState) : (s.setFx st).sources = s.sources := rfl
@[simp] theorem setFx_sinks (s : State) (st : FxState) : (s.setFx st).sinks = s.sinks := rfl
@[simp] theorem setFx_inLanes (s : State) (st : FxState) : (s.setFx st).inLanes = s.inLanes := rfl
@[simp] theorem setFx_outLanes (s : State) (st : FxState) : (s.setFx st).outLanes = s.outLanes := rfl
@[simp] theorem setFx_fa (s : State) (st : FxState) : (s.setFx st).fa = s.fa := rfl
@[simp] theorem setFx_fb (s : State) (st : FxState) : (s.setFx st).fb = s.fb := rfl
@[simp] theorem setFx_monitor (s : State) (st : FxState) : (s.setFx st).monitor = s.monitor := rfl
@[simp] theorem setFx_routeReports (s : State) (st : FxState) : (s.setFx st).routeReports = s.routeReports := rfl
@[simp] theorem setFx_laneReports (s : State) (st : FxState) : (s.setFx st).laneReports = s.laneReports := rfl
@[simp] theorem setFx_channels (s : State) (st : FxState) : (s.setFx st).channels = s.channels := rfl
@[simp] theorem setFx_stores (s : State) (st : FxState) : (s.setFx st).stores = s.stores := rfl
@[simp] theorem setFx_freeDraws (s : State) (st : FxState) : (s.setFx st).freeDraws = s.freeDraws := rfl

/-! ### setHolder -/

@[simp] theorem setHolder_pending (s : State) (p : Port) (h : Holder) : (s.setHolder p h).pending = s.pending := rfl
@[simp] theorem setHolder_resetHeld (s : State) (p : Port) (h : Holder) : (s.setHolder p h).resetHeld = s.resetHeld := rfl
@[simp] theorem setHolder_sessions (s : State) (p : Port) (h : Holder) : (s.setHolder p h).sessions = s.sessions := rfl
@[simp] theorem setHolder_queues (s : State) (p : Port) (h : Holder) : (s.setHolder p h).queues = s.queues := rfl
@[simp] theorem setHolder_routes (s : State) (p : Port) (h : Holder) : (s.setHolder p h).routes = s.routes := rfl
@[simp] theorem setHolder_claims (s : State) (p : Port) (h : Holder) : (s.setHolder p h).claims = s.claims := rfl
@[simp] theorem setHolder_sources (s : State) (p : Port) (h : Holder) : (s.setHolder p h).sources = s.sources := rfl
@[simp] theorem setHolder_sinks (s : State) (p : Port) (h : Holder) : (s.setHolder p h).sinks = s.sinks := rfl
@[simp] theorem setHolder_inLanes (s : State) (p : Port) (h : Holder) : (s.setHolder p h).inLanes = s.inLanes := rfl
@[simp] theorem setHolder_outLanes (s : State) (p : Port) (h : Holder) : (s.setHolder p h).outLanes = s.outLanes := rfl
@[simp] theorem setHolder_fa (s : State) (p : Port) (h : Holder) : (s.setHolder p h).fa = s.fa := rfl
@[simp] theorem setHolder_fb (s : State) (p : Port) (h : Holder) : (s.setHolder p h).fb = s.fb := rfl
@[simp] theorem setHolder_fx (s : State) (p : Port) (h : Holder) : (s.setHolder p h).fx = s.fx := rfl
@[simp] theorem setHolder_monitor (s : State) (p : Port) (h : Holder) : (s.setHolder p h).monitor = s.monitor := rfl
@[simp] theorem setHolder_routeReports (s : State) (p : Port) (h : Holder) : (s.setHolder p h).routeReports = s.routeReports := rfl
@[simp] theorem setHolder_laneReports (s : State) (p : Port) (h : Holder) : (s.setHolder p h).laneReports = s.laneReports := rfl
@[simp] theorem setHolder_channels (s : State) (p : Port) (h : Holder) : (s.setHolder p h).channels = s.channels := rfl
@[simp] theorem setHolder_stores (s : State) (p : Port) (h : Holder) : (s.setHolder p h).stores = s.stores := rfl
@[simp] theorem setHolder_freeDraws (s : State) (p : Port) (h : Holder) : (s.setHolder p h).freeDraws = s.freeDraws := rfl

/-! ### driveOnes -/

@[simp] theorem driveOnes_pending (s : State) (p : Port) (n : Nat) : (s.driveOnes p n).pending = s.pending := rfl
@[simp] theorem driveOnes_resetHeld (s : State) (p : Port) (n : Nat) : (s.driveOnes p n).resetHeld = s.resetHeld := rfl
@[simp] theorem driveOnes_sessions (s : State) (p : Port) (n : Nat) : (s.driveOnes p n).sessions = s.sessions := rfl
@[simp] theorem driveOnes_queues (s : State) (p : Port) (n : Nat) : (s.driveOnes p n).queues = s.queues := rfl
@[simp] theorem driveOnes_routes (s : State) (p : Port) (n : Nat) : (s.driveOnes p n).routes = s.routes := rfl
@[simp] theorem driveOnes_claims (s : State) (p : Port) (n : Nat) : (s.driveOnes p n).claims = s.claims := rfl
@[simp] theorem driveOnes_sources (s : State) (p : Port) (n : Nat) : (s.driveOnes p n).sources = s.sources := rfl
@[simp] theorem driveOnes_sinks (s : State) (p : Port) (n : Nat) : (s.driveOnes p n).sinks = s.sinks := rfl
@[simp] theorem driveOnes_inLanes (s : State) (p : Port) (n : Nat) : (s.driveOnes p n).inLanes = s.inLanes := rfl
@[simp] theorem driveOnes_outLanes (s : State) (p : Port) (n : Nat) : (s.driveOnes p n).outLanes = s.outLanes := rfl
@[simp] theorem driveOnes_fa (s : State) (p : Port) (n : Nat) : (s.driveOnes p n).fa = s.fa := rfl
@[simp] theorem driveOnes_fb (s : State) (p : Port) (n : Nat) : (s.driveOnes p n).fb = s.fb := rfl
@[simp] theorem driveOnes_fx (s : State) (p : Port) (n : Nat) : (s.driveOnes p n).fx = s.fx := rfl
@[simp] theorem driveOnes_monitor (s : State) (p : Port) (n : Nat) : (s.driveOnes p n).monitor = s.monitor := rfl
@[simp] theorem driveOnes_routeReports (s : State) (p : Port) (n : Nat) : (s.driveOnes p n).routeReports = s.routeReports := rfl
@[simp] theorem driveOnes_laneReports (s : State) (p : Port) (n : Nat) : (s.driveOnes p n).laneReports = s.laneReports := rfl
@[simp] theorem driveOnes_channels (s : State) (p : Port) (n : Nat) : (s.driveOnes p n).channels = s.channels := rfl
@[simp] theorem driveOnes_stores (s : State) (p : Port) (n : Nat) : (s.driveOnes p n).stores = s.stores := rfl
@[simp] theorem driveOnes_freeDraws (s : State) (p : Port) (n : Nat) : (s.driveOnes p n).freeDraws = s.freeDraws := rfl

/-! ### setLane, a lane of either side -/

@[simp] theorem setLane_pending (s : State) (l : LaneId) (x : Lane) : (s.setLane l x).pending = s.pending := by
  cases l <;> rfl
@[simp] theorem setLane_resetHeld (s : State) (l : LaneId) (x : Lane) : (s.setLane l x).resetHeld = s.resetHeld := by
  cases l <;> rfl
@[simp] theorem setLane_ports (s : State) (l : LaneId) (x : Lane) : (s.setLane l x).ports = s.ports := by
  cases l <;> rfl
@[simp] theorem setLane_sessions (s : State) (l : LaneId) (x : Lane) : (s.setLane l x).sessions = s.sessions := by
  cases l <;> rfl
@[simp] theorem setLane_queues (s : State) (l : LaneId) (x : Lane) : (s.setLane l x).queues = s.queues := by
  cases l <;> rfl
@[simp] theorem setLane_routes (s : State) (l : LaneId) (x : Lane) : (s.setLane l x).routes = s.routes := by
  cases l <;> rfl
@[simp] theorem setLane_claims (s : State) (l : LaneId) (x : Lane) : (s.setLane l x).claims = s.claims := by
  cases l <;> rfl
@[simp] theorem setLane_sources (s : State) (l : LaneId) (x : Lane) : (s.setLane l x).sources = s.sources := by
  cases l <;> rfl
@[simp] theorem setLane_sinks (s : State) (l : LaneId) (x : Lane) : (s.setLane l x).sinks = s.sinks := by
  cases l <;> rfl
@[simp] theorem setLane_input_inLanes (s : State) (i : Idx) (x : Lane) :
    (s.setLane (.input i) x).inLanes = s.inLanes.set i x := rfl
@[simp] theorem setLane_output_inLanes (s : State) (i : Idx) (x : Lane) :
    (s.setLane (.output i) x).inLanes = s.inLanes := rfl
@[simp] theorem setLane_output_outLanes (s : State) (i : Idx) (x : Lane) :
    (s.setLane (.output i) x).outLanes = s.outLanes.set i x := rfl
@[simp] theorem setLane_input_outLanes (s : State) (i : Idx) (x : Lane) :
    (s.setLane (.input i) x).outLanes = s.outLanes := rfl
@[simp] theorem setLane_fa (s : State) (l : LaneId) (x : Lane) : (s.setLane l x).fa = s.fa := by
  cases l <;> rfl
@[simp] theorem setLane_fb (s : State) (l : LaneId) (x : Lane) : (s.setLane l x).fb = s.fb := by
  cases l <;> rfl
@[simp] theorem setLane_fx (s : State) (l : LaneId) (x : Lane) : (s.setLane l x).fx = s.fx := by
  cases l <;> rfl
@[simp] theorem setLane_monitor (s : State) (l : LaneId) (x : Lane) : (s.setLane l x).monitor = s.monitor := by
  cases l <;> rfl
@[simp] theorem setLane_routeReports (s : State) (l : LaneId) (x : Lane) : (s.setLane l x).routeReports = s.routeReports := by
  cases l <;> rfl
@[simp] theorem setLane_laneReports (s : State) (l : LaneId) (x : Lane) : (s.setLane l x).laneReports = s.laneReports := by
  cases l <;> rfl
@[simp] theorem setLane_channels (s : State) (l : LaneId) (x : Lane) : (s.setLane l x).channels = s.channels := by
  cases l <;> rfl
@[simp] theorem setLane_stores (s : State) (l : LaneId) (x : Lane) : (s.setLane l x).stores = s.stores := by
  cases l <;> rfl
@[simp] theorem setLane_freeDraws (s : State) (l : LaneId) (x : Lane) : (s.setLane l x).freeDraws = s.freeDraws := by
  cases l <;> rfl

/-! ### The field an update writes -/

@[simp] theorem setPort_ports (s : State) (p : Port) (u : PortUnit) :
    (s.setPort p u).ports = s.ports.set p u := rfl
@[simp] theorem setSession_sessions (s : State) (p : Port) (x : Session) :
    (s.setSession p x).sessions = s.sessions.set p x := rfl
@[simp] theorem setQueue_queues (s : State) (p : Port) (q : EventQueue) :
    (s.setQueue p q).queues = s.queues.set p q := rfl
@[simp] theorem setClaim_claims (s : State) (t : Sink) (ids : List Nat) :
    (s.setClaim t ids).claims = Bank.setSink s.claims t ids := rfl
@[simp] theorem setSourceEntry_sources (s : State) (e : Source) (x : SourceEntry) :
    (s.setSourceEntry e x).sources = Bank.setSource s.sources e x := rfl
@[simp] theorem setSinkEntry_sinks (s : State) (t : Sink) (x : SinkEntry) :
    (s.setSinkEntry t x).sinks = Bank.setSink s.sinks t x := rfl
@[simp] theorem setStore_stores (s : State) (n : Idx) (x : Store) :
    (s.setStore n x).stores = s.stores.set n x := rfl
@[simp] theorem setRoute_routes (s : State) (r : Route) :
    (s.setRoute r).routes = s.routes.map fun x => if x.id = r.id then r else x := rfl
@[simp] theorem dropRoute_routes (s : State) (id : Nat) :
    (s.dropRoute id).routes = s.routes.filter fun r => r.id != id := rfl

end Sys2Proof.Machine.State
end

