-- ==== Sys2Proof/Laws/Word.lean ====
section
/-! SUPPORT. Reading back what was written: the fixed collections (`Quad`, `PerPort`, `Bank`). -/

namespace Sys2Proof

namespace Quad

@[simp] theorem get_set (q : Quad α) (i j : Idx) (a : α) : (q.set i a).get j = if j = i then a else q.get j := by
  cases i <;> cases j <;> rfl

@[simp] theorem set_get (q : Quad α) (i : Idx) : q.set i (q.get i) = q := by cases i <;> rfl

@[simp] theorem get_tab (f : Idx → α) (i : Idx) : (Quad.tab f).get i = f i := by cases i <;> rfl

@[simp] theorem get_const (a : α) (i : Idx) : (Quad.const a).get i = a := by cases i <;> rfl

theorem ext_get {a b : Quad α} (h : ∀ i, a.get i = b.get i) : a = b := by
  have h0 := h .i0; have h1 := h .i1; have h2 := h .i2; have h3 := h .i3
  cases a; cases b; simp only [get] at h0 h1 h2 h3; simp [h0, h1, h2, h3]

@[simp] theorem tab_get (q : Quad α) : Quad.tab q.get = q := rfl

end Quad

namespace PerPort

@[simp] theorem get_set (v : PerPort α) (p q : Port) (a : α) : (v.set p a).get q = if q = p then a else v.get q := by
  cases p <;> cases q <;> rfl

@[simp] theorem set_get (v : PerPort α) (p : Port) : v.set p (v.get p) = v := by cases p <;> rfl

@[simp] theorem set_set (v : PerPort α) (p : Port) (a b : α) : (v.set p a).set p b = v.set p b := by cases p <;> rfl

@[simp] theorem get_tab (f : Port → α) (p : Port) : (PerPort.tab f).get p = f p := by cases p <;> rfl

@[simp] theorem get_const (a : α) (p : Port) : (PerPort.const a).get p = a := by cases p <;> rfl

theorem ext_get {a b : PerPort α} (h : ∀ p, a.get p = b.get p) : a = b := by
  have h0 := h .hp0; have h1 := h .hp1; have h2 := h .hp2
  cases a; cases b; simp only [get] at h0 h1 h2; simp [h0, h1, h2]

end PerPort

namespace Machine.Bank

@[simp] theorem atSource_setSource (b : Bank α) (e e' : Source) (a : α) :
    Bank.atSource (Bank.setSource b e a) e' = if e' = e then a else Bank.atSource b e' := by
  cases e <;> cases e' <;> simp [Bank.atSource, Bank.setSource]
  split <;> simp_all

@[simp] theorem atSink_setSink (b : Bank α) (t t' : Sink) (a : α) :
    Bank.atSink (Bank.setSink b t a) t' = if t' = t then a else Bank.atSink b t' := by
  cases t <;> cases t' <;> simp [Bank.atSink, Bank.setSink]
  split <;> simp_all

@[simp] theorem setSource_atSource (b : Bank α) (e : Source) : Bank.setSource b e (Bank.atSource b e) = b := by
  cases e <;> simp [Bank.atSource, Bank.setSource]

@[simp] theorem setSink_atSink (b : Bank α) (t : Sink) : Bank.setSink b t (Bank.atSink b t) = b := by
  cases t <;> simp [Bank.atSink, Bank.setSink]

end Machine.Bank

end Sys2Proof
end

