-- ==== Sys2Proof/Laws/Ops.lean ====
section
/-! SUPPORT. What each shared operation does, said once: reading records back, the Route Table by id, events reaching the
queues, the frame a port takes, and the release of a route. -/

namespace Sys2Proof.Machine

/-! ### Records read back -/

namespace State

@[simp] theorem port_setPort (s : State) (p q : Port) (u : PortUnit) :
    (s.setPort p u).port q = if q = p then u else s.port q := by simp [port, setPort]

@[simp] theorem setPort_port (s : State) (p : Port) : s.setPort p (s.port p) = s := by simp [port, setPort]

@[simp] theorem session_setSession (s : State) (p q : Port) (x : Session) :
    (s.setSession p x).session q = if q = p then x else s.session q := by simp [session, setSession]

@[simp] theorem queue_setQueue (s : State) (p q : Port) (x : EventQueue) :
    (s.setQueue p x).queue q = if q = p then x else s.queue q := by simp [queue, setQueue]

@[simp] theorem claim_setClaim (s : State) (t u : Sink) (ids : List Nat) :
    (s.setClaim t ids).claim u = if u = t then ids else s.claim u := by simp [claim, setClaim]

@[simp] theorem sinkEntry_setSinkEntry (s : State) (t u : Sink) (x : SinkEntry) :
    (s.setSinkEntry t x).sinkEntry u = if u = t then x else s.sinkEntry u := by simp [sinkEntry, setSinkEntry]

@[simp] theorem sourceEntry_setSourceEntry (s : State) (e f : Source) (x : SourceEntry) :
    (s.setSourceEntry e x).sourceEntry f = if f = e then x else s.sourceEntry f := by
  simp [sourceEntry, setSourceEntry]

@[simp] theorem store_setStore (s : State) (n m : Idx) (x : Store) :
    (s.setStore n x).store m = if m = n then x else s.store m := by simp [store, setStore]

@[simp] theorem lane_setLane (s : State) (l k : LaneId) (x : Lane) :
    (s.setLane l x).lane k = if k = l then x else s.lane k := by
  cases l <;> cases k <;> simp [lane, setLane]

@[simp] theorem channel_setChannel (s : State) (l k l' k' : Idx) (x : Channel) :
    (s.setChannel l k x).channel l' k' = if l' = l ∧ k' = k then x else s.channel l' k' := by
  simp only [channel, setChannel, Quad.get_set]
  by_cases hl : l' = l
  · subst hl; by_cases hk : k' = k <;> simp [hk]
  · simp [hl]

/-! ### The Route Table by id -/

theorem route?_some {s : State} {id : Nat} {r : Route} (h : s.route? id = some r) : r.id = id ∧ r ∈ s.routes :=
  ⟨by simpa using List.find?_some h, List.mem_of_find?_eq_some h⟩

theorem route?_eq_none {s : State} {id : Nat} : s.route? id = none ↔ ∀ r ∈ s.routes, r.id ≠ id := by
  simp [route?]

/-- With distinct ids the record of an id is the one that carries it. -/
theorem route?_of_mem {s : State} (h : RoutesOrdered s) {r : Route} (hr : r ∈ s.routes) : s.route? r.id = some r := by
  have hp := h.1
  unfold route?
  generalize s.routes = rs at hp hr
  induction rs with
  | nil => cases hr
  | cons x xs ih =>
    simp only [List.map_cons, List.pairwise_cons] at hp
    rcases List.mem_cons.mp hr with rfl | hm
    · simp
    · have hlt : x.id < r.id := hp.1 _ (List.mem_map_of_mem hm)
      have hne : (x.id == r.id) = false := by simp; omega
      rw [List.find?_cons, hne]; exact ih hp.2 hm

theorem route?_setRoute (s : State) (r : Route) (id : Nat) :
    (s.setRoute r).route? id = if id = r.id then (s.route? id).map fun _ => r else s.route? id := by
  simp only [route?, setRoute_routes]
  generalize s.routes = rs
  induction rs with
  | nil => simp
  | cons x xs ih =>
    simp only [List.map_cons, List.find?_cons]
    by_cases hx : x.id = r.id
    · by_cases hid : id = r.id
      · simp [hx, hid]
      · have h1 : (r.id == id) = false := by simpa using fun h => hid h.symm
        simp only [hx, if_true, h1, ih, if_neg hid]
    · by_cases hid : id = r.id
      · have h1 : (x.id == id) = false := by simpa [hid] using hx
        simpa [hx, h1] using ih
      · simp only [hx, if_false, hid] at ih ⊢; rw [ih]

theorem route?_dropRoute (s : State) (k id : Nat) :
    (s.dropRoute k).route? id = if id = k then none else s.route? id := by
  simp only [route?, dropRoute_routes, List.find?_filter]
  by_cases hid : id = k
  · subst hid
    simp
  · simp only [hid, if_false]
    congr 1
    funext r
    by_cases hr : r.id = id <;> simp [hr, hid]

theorem find?_insertRoute (r : Route) (rs : List Route) (id : Nat) (h : ∀ x ∈ rs, x.id ≠ r.id) :
    (insertRoute r rs).find? (fun x => x.id == id) =
      if id = r.id then some r else rs.find? fun x => x.id == id := by
  induction rs with
  | nil => simp only [insertRoute, List.find?_cons, List.find?_nil]; grind
  | cons x xs ih =>
    have hx := h x (List.mem_cons_self ..)
    have ih' := ih fun y hy => h y (List.mem_cons_of_mem _ hy)
    unfold insertRoute
    split <;> simp only [List.find?_cons, ih'] <;> grind

end State

/-- The id CONNECT is given is held by no route, and every lower one is (R2). -/
theorem lowestFreeId_spec {rs : List Route} {id : Nat} (h : lowestFreeId rs = some id) :
    1 ≤ id ∧ id ≤ 48 ∧ (∀ r ∈ rs, r.id ≠ id) ∧ ∀ k, 1 ≤ k → k < id → ∃ r ∈ rs, r.id = k := by
  unfold lowestFreeId at h
  have hm := List.mem_of_find?_eq_some h
  have hp := List.find?_some h
  simp only [maxRoutes, List.mem_map, List.mem_range] at hm
  obtain ⟨i, hi, rfl⟩ := hm
  refine ⟨by omega, by omega, ?_, ?_⟩
  · intro r hr he
    simp at hp; exact hp r hr he
  · intro k hk hlt
    rw [List.find?_eq_some_iff_append] at h
    obtain ⟨-, as, bs, hab, hno⟩ := h
    have hlen : as.length = i := by
      have h1 : (as ++ (i + 1) :: bs)[as.length]? = some (i + 1) := by simp
      rw [← hab, List.getElem?_map] at h1
      obtain ⟨a, ha, he⟩ := Option.map_eq_some_iff.mp h1
      rw [List.getElem?_eq_some_iff] at ha
      obtain ⟨_, ha⟩ := ha
      simp at ha; omega
    have hk' : k ∈ as := by
      have h2 : (as ++ (i + 1) :: bs)[k - 1]? = some k := by
        rw [← hab, List.getElem?_map, List.getElem?_range (by simp [maxRoutes]; omega)]
        simp; omega
      rw [List.getElem?_append_left (by omega)] at h2
      exact List.mem_of_getElem? h2
    have := hno k hk'
    simpa using this

/-! ### Events reach the queues -/

namespace State

/-- A port whose session is OPEN takes its events in turn; no other queue and nothing else changes. -/
theorem deliverTo_eq (s : State) (p : Port) (evs : List Event) :
    s.deliverTo p evs =
      { s with
        queues := s.queues.set p (if (s.session p).isOpen then evs.foldl EventQueue.put (s.queue p) else s.queue p) } := by
  unfold deliverTo
  split
  · rfl
  · have h : s.queues.set p (s.queue p) = s.queues := by cases p <;> rfl
    rw [h]

/-- What an append of events leaves: every queue of an open session takes its events in turn, and nothing else changes. -/
theorem deliver_eq (s : State) (evs : PerPort (List Event)) :
    s.deliver evs =
      { s with
        queues := .tab fun p =>
          if (s.session p).isOpen then (evs.get p).foldl EventQueue.put (s.queue p) else s.queue p } := by
  unfold deliver
  simp only [deliverTo_eq]
  rfl

theorem post_eq (s : State) (es : List Emit) :
    s.post es =
      { s with
        queues := .tab fun p =>
          if (s.session p).isOpen then (eventsFor p es).foldl EventQueue.put (s.queue p) else s.queue p } := by
  simp [post, deliver_eq]

theorem postRuns_eq (s : State) (order : Picks) (runs : List (List Emit)) :
    s.postRuns order runs =
      { s with
        queues := .tab fun p =>
          if (s.session p).isOpen then (eventsFor p (interleave (order.get p) runs)).foldl EventQueue.put (s.queue p)
          else s.queue p } := by
  simp [postRuns, deliver_eq]

@[simp] theorem post_nil (s : State) : s.post [] = s := by
  rw [post_eq]
  have : (PerPort.tab fun p =>
      if (s.session p).isOpen then (eventsFor p []).foldl EventQueue.put (s.queue p) else s.queue p) = s.queues := by
    apply PerPort.ext_get; intro p; simp [eventsFor, queue]
  rw [this]

theorem queue_post (s : State) (es : List Emit) (p : Port) :
    (s.post es).queue p =
      if (s.session p).isOpen then (eventsFor p es).foldl EventQueue.put (s.queue p) else s.queue p := by
  simp [post_eq, queue]

end State

/-! ### The frame a port takes -/

/-- A response put into the holder, with the bytes of its frame on the wires. -/
theorem answer_eq_replied (s : State) (p : Port) (seq : Byte) (res : Result) (payload : List Byte) (n : Nat) :
    s.answer p { seq := seq, result := res, payload := payload } n = s.replied p seq res payload n := by
  cases p <;> rfl

theorem ready_spec {s : State} {p : Port} (h : s.ready p = true) :
    s.takes p = true ∧ (s.port p).resetWaiting = false ∧ (s.port p).holder.busy = false := by
  simpa [State.ready, and_assoc] using h

theorem serving_spec {s : State} {p : Port} (h : s.serving p = true) : s.ready p = true ∧ (s.session p).isOpen = true := by
  simpa [State.serving] using h

/-- A frame that a ready port takes: judged by its length, by the session and by the command's own checks, in this order;
the changes and the events are made and the response is executing. -/
theorem takeCommand_ready {s : State} {p : Port} (h : s.ready p = true) (seq : Byte) (params : List Byte)
    (lengthOk needsSession : Bool) (own : State → Reply) :
    takeCommand p seq params lengthOk needsSession own s =
      let r :=
        if !lengthOk then refuse .badLength s
        else if needsSession && !(s.session p).isOpen then refuse .noSession s
        else own s
      (r.st.post r.evs).replied p seq r.result r.payload (4 + params.length) := by
  obtain ⟨ht, hw, hb⟩ := ready_spec h
  unfold takeCommand
  simp only [ht, if_true, State.settle, hw, Bool.false_eq_true, if_false]
  cases hh : (s.port p).holder with
  | executing r => simp [hh, Holder.busy] at hb
  | empty => exact answer_eq_replied ..
  | ready r => exact answer_eq_replied ..
  | fetched r => exact answer_eq_replied ..

/-- A frame of an accepted length, with the session it needs, is judged by the command's own checks. -/
theorem takeCommand_serving {s : State} {p : Port} (h : s.serving p = true) (seq : Byte) (params : List Byte)
    (needsSession : Bool) (own : State → Reply) :
    takeCommand p seq params true needsSession own s =
      ((own s).st.post (own s).evs).replied p seq (own s).result (own s).payload (4 + params.length) := by
  obtain ⟨hr, ho⟩ := serving_spec h
  rw [takeCommand_ready hr]; simp [ho]

/-- A port that takes no transactions does not see a frame. -/
theorem takeCommand_not_taken {s : State} {p : Port} (h : s.takes p = false) (seq : Byte) (params : List Byte)
    (lengthOk needsSession : Bool) (own : State → Reply) : takeCommand p seq params lengthOk needsSession own s = s := by
  simp [takeCommand, h]

/-- A frame that meets an executing command is discarded. -/
theorem takeCommand_busy {s : State} {p : Port} (ht : s.takes p = true) (hw : (s.port p).resetWaiting = false)
    (hb : (s.port p).holder.busy = true) (seq : Byte) (params : List Byte) (lengthOk needsSession : Bool)
    (own : State → Reply) :
    takeCommand p seq params lengthOk needsSession own s = s.driveOnes p (4 + params.length) := by
  unfold takeCommand
  simp only [ht, if_true, State.settle, hw, Bool.false_eq_true, if_false]
  cases hh : (s.port p).holder with
  | executing r => rfl
  | empty => simp [hh, Holder.busy] at hb
  | ready r => simp [hh, Holder.busy] at hb
  | fetched r => simp [hh, Holder.busy] at hb

/-- A refusal leaves the state to the port. -/
@[simp] theorem refuse_st (r : Result) (s : State) : (refuse r s).st = s := rfl
@[simp] theorem refuse_evs (r : Result) (s : State) : (refuse r s).evs = [] := rfl
@[simp] theorem refuse_result (r : Result) (s : State) : (refuse r s).result = r := rfl
@[simp] theorem refuse_payload (r : Result) (s : State) : (refuse r s).payload = [] := rfl
@[simp] theorem accept_st (s : State) (evs : List Emit) (b : List Byte) : (accept s evs b).st = s := rfl
@[simp] theorem accept_evs (s : State) (evs : List Emit) (b : List Byte) : (accept s evs b).evs = evs := rfl
@[simp] theorem accept_result (s : State) (evs : List Emit) (b : List Byte) : (accept s evs b).result = .ok := rfl
@[simp] theorem accept_payload (s : State) (evs : List Emit) (b : List Byte) : (accept s evs b).payload = b := rfl

/-! ### Reports between blocks -/

/-- A report is taken exactly when it is the oldest about its thing; the others keep their order. -/
theorem takeReport_eq_some [DecidableEq α] {same : α → Bool} {r : α} {xs ys : List α}
    (h : takeReport same r xs = some ys) :
    ∃ front back, xs = front ++ r :: back ∧ ys = front ++ back ∧ (∀ x ∈ front, same x = false) ∧ same r = true := by
  induction xs generalizing ys with
  | nil => simp [takeReport] at h
  | cons x xs ih =>
    unfold takeReport at h
    cases hs : same x with
    | true =>
      rw [if_pos hs] at h
      by_cases hx : x = r
      · rw [if_pos hx, Option.some.injEq] at h
        exact ⟨[], xs, by simp [hx], by simp [h], by simp, hx ▸ hs⟩
      · simp [hx] at h
    | false =>
      rw [if_neg (by simp [hs])] at h
      cases hq : takeReport same r xs with
      | none => simp [hq] at h
      | some zs =>
        obtain ⟨front, back, rfl, rfl, hf, hr⟩ := ih hq
        simp only [hq, Option.map_some, Option.some.injEq] at h
        refine ⟨x :: front, back, by simp, by simp [← h], ?_, hr⟩
        intro y hy
        rcases List.mem_cons.mp hy with rfl | hy
        · exact hs
        · exact hf y hy

end Sys2Proof.Machine
end

