-- ==== Sys2Proof/Laws/Events.lean ====
section
/-! SUPPORT. Several runs of events taken in some order (`interleave`), the events a queue takes, one period of XREF, the
wires of a port and those of an output lane. -/

namespace Sys2Proof.Machine
namespace State

/-- A queue takes the events of a happening that are for its port. -/
theorem queue_post_eq_queueAfter (s : State) (es : List Emit) (p : Port) :
    (s.post es).queue p = s.queueAfter p (eventsFor p es) := queue_post s es p

/-- A queue takes the events of several happenings that are for its port, in the order its picks choose. -/
theorem queue_postRuns_eq_queueAfter (s : State) (order : Picks) (runs : List (List Emit)) (p : Port) :
    (s.postRuns order runs).queue p = s.queueAfter p (eventsFor p (interleave (order.get p) runs)) := by
  simp [postRuns_eq, queue, queueAfter]

end State

/-! ### Runs of events taken in some order -/

theorem flatten_filter_nonempty (runs : List (List α)) : (runs.filter fun r => !r.isEmpty).flatten = runs.flatten := by
  induction runs with
  | nil => rfl
  | cons r rs ih => cases r <;> simp [ih]

theorem flatten_set_perm {runs : List (List α)} {i : Nat} {x : α} {xs : List α} (h : runs[i]? = some (x :: xs)) :
    (x :: (runs.set i xs).flatten).Perm runs.flatten := by
  induction runs generalizing i with
  | nil => simp at h
  | cons r rs ih =>
    cases i with
    | zero => simp at h; simp [h]
    | succ i =>
      simp only [List.getElem?_cons_succ] at h
      simp only [List.set_cons_succ, List.flatten_cons]
      exact List.perm_middle.symm.trans ((ih h).append_left r)

/-- What a draw from the runs that still hold something takes: the head of one of them, while one is left. -/
theorem interleave_cons (k : Nat) (ks : List Nat) (runs : List (List α)) :
    (interleave (k :: ks) runs = [] ∧ runs.flatten = []) ∨
    ∃ i x xs, (runs.filter fun r => !r.isEmpty)[i]? = some (x :: xs) ∧
      interleave (k :: ks) runs = x :: interleave ks ((runs.filter fun r => !r.isEmpty).set i xs) := by
  unfold interleave
  simp only
  split
  · exact .inr ⟨_, _, _, ‹_›, by cases ks <;> rfl⟩
  · next h =>
    refine .inl ⟨rfl, ?_⟩
    cases hl : runs.filter fun r => !r.isEmpty with
    | nil => rw [← flatten_filter_nonempty, hl]; rfl
    | cons r rs =>
      exfalso
      have hlt : k % (runs.filter fun r => !r.isEmpty).length < (runs.filter fun r => !r.isEmpty).length :=
        Nat.mod_lt _ (by simp [hl])
      have hm := List.getElem_mem hlt
      have hne := (List.mem_filter.mp hm).2
      cases he : (runs.filter fun r => !r.isEmpty)[k % (runs.filter fun r => !r.isEmpty).length] with
      | nil => simp [he] at hne
      | cons x xs => exact h x xs (by rw [List.getElem?_eq_getElem hlt, he])

/-- However the picks choose, every event of every run is taken once. -/
theorem interleave_perm (ks : List Nat) (runs : List (List α)) : (interleave ks runs).Perm runs.flatten := by
  induction ks generalizing runs with
  | nil => exact .refl _
  | cons k ks ih =>
    rcases interleave_cons k ks runs with ⟨h, hr⟩ | ⟨i, x, xs, hi, h⟩
    · rw [h, hr]
    · rw [h, ← flatten_filter_nonempty runs]
      exact ((ih _).cons x).trans (flatten_set_perm hi)

/-- However the picks choose, each run keeps its own order. -/
theorem sublist_interleave (ks : List Nat) {runs : List (List α)} {r : List α} (hr : r ∈ runs) :
    r.Sublist (interleave ks runs) := by
  induction ks generalizing runs r with
  | nil => exact List.sublist_flatten_of_mem hr
  | cons k ks ih =>
    cases r with
    | nil => exact List.nil_sublist _
    | cons a as =>
      rcases interleave_cons k ks runs with ⟨-, h⟩ | ⟨i, x, xs, hi, h⟩
      · have := List.flatten_eq_nil_iff.mp h _ hr; simp at this
      · rw [h]
        obtain ⟨j, hj⟩ := List.mem_iff_getElem?.mp (List.mem_filter.mpr ⟨hr, by simp⟩ :
          a :: as ∈ runs.filter fun r => !r.isEmpty)
        have hlt : i < (runs.filter fun r => !r.isEmpty).length := by
          rcases Nat.lt_or_ge i (runs.filter fun r => !r.isEmpty).length with h | h
          · exact h
          · rw [List.getElem?_eq_none h] at hi; simp at hi
        by_cases hji : j = i
        · subst hji
          rw [hi] at hj
          obtain ⟨rfl, rfl⟩ := by simpa using hj
          exact (ih (List.mem_iff_getElem?.mpr ⟨j, by simp [hlt]⟩)).cons_cons x
        · exact (ih (List.mem_iff_getElem?.mpr ⟨j, by rw [List.getElem?_set_ne (Ne.symm hji), hj]⟩)).cons x

/-- Events that one run alone holds are taken in that run's order. -/
theorem filter_interleave (ks : List Nat) {runs : List (List α)} {r : List α} (P : α → Bool) (hr : r ∈ runs)
    (h : runs.flatten.filter P = r.filter P) : (interleave ks runs).filter P = r.filter P :=
  (((sublist_interleave ks hr).filter P).eq_of_length (by rw [← h]; exact ((interleave_perm ks runs).filter P).length_eq.symm)).symm

/-! ### One period of XREF -/

/-- Outside RESET a period changes the counts and puts the happenings of the timers at 0 behind the waiting commands. -/
theorem State.tick_eq {s : State} (h : s.resetHeld = false) :
    s.tick =
      { s with
        routes := s.countTimers.routes, fx := s.countTimers.fx, pending := s.pending ++ s.countTimers.timersDue } := by
  simp [State.tick, h, State.countTimers]

theorem State.tick_resetHeld {s : State} (h : s.resetHeld = true) : s.tick = s := by simp [State.tick, h]

/-- A period keeps every record but its wait time left. -/
theorem State.route?_countTimers (s : State) (id : Nat) :
    s.countTimers.route? id = (s.route? id).map fun r =>
      match r.state with
      | .waiting (some n) => { r with state := .waiting (some (n - 1)) }
      | _ => r := by
  simp only [State.route?, State.countTimers, List.find?_map]
  congr 2
  funext r
  simp only [Function.comp]
  split <;> rfl

/-! ### The wires of a port -/

theorem byteOfBits_of_byte (b : Byte) :
    byteOfBits (b.getLsbD 7) (b.getLsbD 6) (b.getLsbD 5) (b.getLsbD 4) (b.getLsbD 3) (b.getLsbD 2) (b.getLsbD 1)
      (b.getLsbD 0) = b := by
  revert b; decide +kernel

/-- The bits of whole bytes with fewer than eight left over are grouped into those bytes (R145). -/
theorem bytesOfBits_bitsOfBytes (bs : List Byte) {extra : List Bool} (h : extra.length < 8) :
    bytesOfBits (bitsOfBytes bs ++ extra) = bs := by
  induction bs with
  | nil =>
    match extra, h with
    | [], _ | [_], _ | [_, _], _ | [_, _, _], _ | [_, _, _, _], _ | [_, _, _, _, _], _ | [_, _, _, _, _, _], _
    | [_, _, _, _, _, _, _], _ => rfl
  | cons b bs ih =>
    have : bitsOfBytes (b :: bs) = [b.getLsbD 7, b.getLsbD 6, b.getLsbD 5, b.getLsbD 4, b.getLsbD 3, b.getLsbD 2,
      b.getLsbD 1, b.getLsbD 0] ++ bitsOfBytes bs := rfl
    simp only [this, List.cons_append, List.nil_append, bytesOfBits, byteOfBits_of_byte, ih]

/-- A command that is taken at once leaves what `exec` answers. -/
theorem State.take_eq {s t : State} {c : Instr} (h : exec c s = .next t) : s.take c = t := by simp [State.take, h]

/-- A FETCH named whole is the end of one whose first byte found the holder as it stands. -/
theorem execFetch_eq {s : State} {p : Port} (n : Nat) (h : s.takes p = true) :
    execFetch p n s = .next (s.endFetch p (s.port p).holder n) := by simp [execFetch, h]

/-- The first byte of a transaction decides its kind and, in a FETCH, its answer; any other bit is only kept. -/
theorem PortUnit.takeBit_eq (u : PortUnit) (x : Transfer) (b : Bool) :
    u.takeBit x b =
      { u with
        link := if (x.bits ++ [b]).length = 8 then linkOfFirst ((bytesOfBits (x.bits ++ [b])).headD 0#8) else u.link
        transfer := some
          { x with
            bits := x.bits ++ [b]
            fetched := if (x.bits ++ [b]).length = 8 then
                if linkOfFirst ((bytesOfBits (x.bits ++ [b])).headD 0#8) = .fetch then some u.holder else none
              else x.fetched } } := by
  simp only [PortUnit.takeBit]; split <;> rfl

/-- What a move of the wires can do: it changes the link state, the level at CSn, the transaction and the count of free levels of
its own port, or, as the end of a transaction with a kind, it ends a FETCH or takes the command that the transaction is. -/
theorem State.wire_cases (s : State) (p : Port) (w : Wire) :
    (∃ link csLow transfer stray,
      s.wire p w = s.setPort p
        { s.port p with link := link, csLow := csLow, transfer := transfer, stray := stray }) ∨
    ∃ x, w = .csRise ∧ (s.port p).transfer = some x ∧
      let ended := s.setPort p { s.port p with csLow := false, transfer := none, link := .idle }
      (∃ h, x.fetched = some h ∧ s.wire p w = ended.endFetch p h ((bytesOfBits x.bits).length - 1)) ∨
      ∃ c, x.fetched = none ∧ decodeWire p x.bits = some c ∧ s.wire p w = ended.take c := by
  cases w with
  | csFall => exact .inl ⟨_, _, _, _, rfl⟩
  | sckRise b =>
    refine .inl ?_
    simp only [State.wire]
    split
    · exact ⟨_, _, _, _, by rw [PortUnit.takeBit_eq]⟩
    · exact ⟨_, _, _, _, (State.setPort_port s p).symm⟩
  | sckFall =>
    refine .inl ?_
    simp only [State.wire, PortUnit.shiftOut]
    split
    · exact ⟨_, _, _, _, rfl⟩
    · split
      · exact ⟨_, _, _, _, rfl⟩
      · exact ⟨_, _, _, _, rfl⟩
  | csRise =>
    simp only [State.wire, PortUnit.released]
    cases hx : (s.port p).transfer with
    | none => refine .inl ?_; dsimp only; split <;> exact ⟨_, _, _, _, rfl⟩
    | some x =>
      dsimp only
      cases hf : x.fetched with
      | some h => exact .inr ⟨x, by simp, rfl, .inl ⟨h, hf, rfl⟩⟩
      | none =>
        cases hc : decodeWire p x.bits with
        | some c => exact .inr ⟨x, by simp, rfl, .inr ⟨c, hf, hc, rfl⟩⟩
        | none => exact .inl ⟨_, _, _, _, rfl⟩

/-! ### The wires of an output lane -/

@[simp] theorem Sending.asserted_low (w : LaneWire) (n : Nat) (h : Bool) : Sending.low.asserted w n h = false := rfl
@[simp] theorem Sending.asserted_frameSync (bits : BitVec 128) (n : Nat) (h : Bool) :
    (Sending.frame bits).asserted .frameSync n h = (n == 0) := rfl
@[simp] theorem Sending.asserted_data (bits : BitVec 128) (n : Nat) (h : Bool) :
    (Sending.frame bits).asserted .data n h = bits.getLsbD (127 - n) := rfl

/-- The wires of a lane are active high. -/
@[simp] theorem State.laneLevel_eq (s : State) (i : Idx) (w : LaneWire) (n : Nat) (h : Bool) :
    s.laneLevel i w n h = (s.outLanes.get i).wires.asserted w n h := by
  cases w <;> simp [State.laneLevel, LaneWire.pin, Pin.level, Pin.activeLow]

/-- A slot: the sample, most significant bit first, then eight bits of 0 (R96). -/
theorem getLsbD_slot (x : Sample) {j : Nat} (h : j < 32) :
    (x ++ 0#8).getLsbD (31 - j) = if j < 24 then x.getLsbD (23 - j) else false := by
  rw [BitVec.getLsbD_append]
  split
  · rw [if_neg (by omega)]; simp
  · rw [if_pos (by omega)]; congr 1; omega

/-- Bit `j` of slot `k` of four slots, slot 0 first. -/
theorem getLsbD_slots (x : Quad (BitVec 32)) (k : Idx) {j : Nat} (h : j < 32) :
    (x.q0 ++ x.q1 ++ x.q2 ++ x.q3).getLsbD (127 - (32 * k.toNat + j)) = (x.get k).getLsbD (31 - j) := by
  cases k <;> simp only [Idx.toNat, Quad.get, BitVec.getLsbD_append]
  · rw [if_neg (by omega), if_neg (by omega), if_neg (by omega)]; congr 1; omega
  · rw [if_neg (by omega), if_neg (by omega), if_pos (by omega)]; congr 1; omega
  · rw [if_neg (by omega), if_pos (by omega)]; congr 1; omega
  · rw [if_pos (by omega)]; congr 1; omega

/-- Bit `j` of slot `k` of the lane frame that carries four samples. -/
theorem getLsbD_packFrame (q : Quad Sample) (k : Idx) {j : Nat} (h : j < 32) :
    (packFrame q).getLsbD (127 - (32 * k.toNat + j)) = if j < 24 then (q.get k).getLsbD (23 - j) else false :=
  (getLsbD_slots ⟨q.q0 ++ 0#8, q.q1 ++ 0#8, q.q2 ++ 0#8, q.q3 ++ 0#8⟩ k h).trans
    (by cases k <;> exact getLsbD_slot _ h)

end Sys2Proof.Machine
end

