-- ==== Sys2Proof/Laws/Routes.lean ====
section
/-! SUPPORT. What the operations on a route and on a sink do, said once: holding and freeing a sink, erasing and making a
record, the claim queue, and one change at each of several routes. -/

namespace Sys2Proof.Machine

/-! ### Fields no operation on one route touches -/

/-- A state in which only the records of routes may differ from `s`: table, sessions, claims, directory and stores. -/
def SameButRoutes (s t : State) : Prop :=
  { t with
    routes := s.routes, sessions := s.sessions, claims := s.claims, sources := s.sources, sinks := s.sinks,
    stores := s.stores } = s

theorem SameButRoutes.rfl (s : State) : SameButRoutes s s := by unfold SameButRoutes; exact Eq.refl _

theorem SameButRoutes.trans {s t u : State} (h1 : SameButRoutes s t) (h2 : SameButRoutes t u) : SameButRoutes s u := by
  unfold SameButRoutes at *; rw [← h1, ← h2]

/-! ### Making and erasing a record -/

/-- The store after a route has let it go: unbound when no other route uses it. -/
theorem unbindStore_store (s : State) (r : Route) (n m : Idx) :
    (s.unbindStore r n).store m =
      if m = n ∧ usesStore r n = true ∧ (s.routes.any fun x => usesStore x n) = false then { s.store n with binding := none }
      else s.store m := by
  unfold State.unbindStore
  by_cases h1 : usesStore r n = true <;> by_cases h2 : (s.routes.any fun x => usesStore x n) = true <;> simp [h1, h2]

theorem unbindStore_eq (s : State) (r : Route) (n : Idx) : ∃ q, s.unbindStore r n = { s with stores := q } := by
  unfold State.unbindStore
  split
  · exact ⟨_, rfl⟩
  · exact ⟨s.stores, rfl⟩

/-- Steps 2 to 4 of R21: the owner's session, the table, from which the record with this id has gone, and the stores. -/
theorem eraseRoute_eq (s : State) (r : Route) :
    ∃ q, s.eraseRoute r =
      { s with
        routes := s.routes.filter fun x => x.id != r.id
        sessions := (s.disown r.owner).sessions
        stores := q } := by
  obtain ⟨q0, h0⟩ := unbindStore_eq ((s.disown r.owner).dropRoute r.id) r .i0
  unfold State.eraseRoute
  simp only [h0]
  obtain ⟨q1, h1⟩ := unbindStore_eq { (s.disown r.owner).dropRoute r.id with stores := q0 } r .i1
  rw [h1]
  obtain ⟨q2, h2⟩ := unbindStore_eq { (s.disown r.owner).dropRoute r.id with stores := q1 } r .i2
  rw [h2]
  obtain ⟨q3, h3⟩ := unbindStore_eq { (s.disown r.owner).dropRoute r.id with stores := q2 } r .i3
  rw [h3]
  refine ⟨q3, ?_⟩
  cases ho : r.owner <;> rfl

@[simp] theorem eraseRoute_routes (s : State) (r : Route) :
    (s.eraseRoute r).routes = s.routes.filter fun x => x.id != r.id := by
  obtain ⟨q, h⟩ := eraseRoute_eq s r; rw [h]

/-- Step 2 of R21: the owner, and no other port, owns one route fewer. -/
theorem eraseRoute_session (s : State) (r : Route) (q : Port) :
    (s.eraseRoute r).session q =
      if r.owner = some q then { s.session q with owned := (s.session q).owned - 1 } else s.session q := by
  obtain ⟨x, h⟩ := eraseRoute_eq s r
  rw [h]
  show (s.disown r.owner).session q = _
  unfold State.disown
  cases ho : r.owner with
  | none => simp
  | some p =>
    by_cases hq : q = p
    · subst hq; simp
    · have : ¬p = q := fun e => hq e.symm
      simp [hq, this]

/-- A store the record used is bound to its domain when it was unbound (R107). -/
theorem bindStore_store (s : State) (r : Route) (n m : Idx) :
    (s.bindStore r n).store m =
      if m = n ∧ usesStore r n = true ∧ (s.store n).binding = none then { s.store n with binding := some r.domain }
      else s.store m := by
  unfold State.bindStore
  by_cases h1 : usesStore r n = true <;> cases h2 : (s.store n).binding <;> simp [h1, h2]

theorem bindStore_eq (s : State) (r : Route) (n : Idx) : ∃ q, s.bindStore r n = { s with stores := q } := by
  unfold State.bindStore
  simp only
  split
  · exact ⟨_, rfl⟩
  · exact ⟨s.stores, rfl⟩

/-- R10: the table with the record inserted, the session of the port, and the stores. -/
theorem createRoute_eq (s : State) (p : Port) (r : Route) :
    ∃ q, s.createRoute p r =
      { s with
        routes := insertRoute r s.routes
        sessions := s.sessions.set p { s.session p with owned := (s.session p).owned + 1 }
        stores := q } := by
  unfold State.createRoute
  simp only
  obtain ⟨q0, h0⟩ := bindStore_eq (({ s with routes := insertRoute r s.routes } : State).setSession p
    { ({ s with routes := insertRoute r s.routes } : State).session p with
      owned := (({ s with routes := insertRoute r s.routes } : State).session p).owned + 1 }) r .i0
  rw [h0]
  obtain ⟨q1, h1⟩ := bindStore_eq _ r .i1
  rw [h1]
  obtain ⟨q2, h2⟩ := bindStore_eq _ r .i2
  rw [h2]
  obtain ⟨q3, h3⟩ := bindStore_eq _ r .i3
  rw [h3]
  exact ⟨q3, rfl⟩

@[simp] theorem createRoute_routes (s : State) (p : Port) (r : Route) :
    (s.createRoute p r).routes = insertRoute r s.routes := by
  obtain ⟨q, h⟩ := createRoute_eq s p r; rw [h]

@[simp] theorem createRoute_claims (s : State) (p : Port) (r : Route) : (s.createRoute p r).claims = s.claims := by
  obtain ⟨q, h⟩ := createRoute_eq s p r; rw [h]

/-- The id inserted, and no other, is new among the ids. -/
theorem mem_insertRoute {r x : Route} {rs : List Route} : x ∈ insertRoute r rs ↔ x = r ∨ x ∈ rs := by
  induction rs with
  | nil => simp [insertRoute]
  | cons y ys ih => unfold insertRoute; split <;> (simp only [List.mem_cons, ih]; try grind)

/-! ### Holding and freeing a sink -/

theorem takeSink_sinkEntry (s : State) (id : Nat) (e : Source) (t u : Sink) :
    (s.takeSink id e t).sinkEntry u = if u = t then { s.sinkEntry t with holder := some id } else s.sinkEntry u := by
  show (s.setSinkEntry t { s.sinkEntry t with holder := some id }).sinkEntry u = _
  simp

theorem takeSink_sourceEntry (s : State) (id : Nat) (e f : Source) (t : Sink) :
    (s.takeSink id e t).sourceEntry f =
      if f = e then { s.sourceEntry e with fanOut := (s.sourceEntry e).fanOut + 1 } else s.sourceEntry f := by
  show (s.setSourceEntry e { s.sourceEntry e with fanOut := (s.sourceEntry e).fanOut + 1 }).sourceEntry f = _
  simp

theorem freeSink_sinkEntry (s : State) (e : Source) (t u : Sink) :
    (s.freeSink e t).sinkEntry u = if u = t then { s.sinkEntry t with holder := none } else s.sinkEntry u := by
  show (s.setSinkEntry t { s.sinkEntry t with holder := none }).sinkEntry u = _
  simp

theorem freeSink_sourceEntry (s : State) (e f : Source) (t : Sink) :
    (s.freeSink e t).sourceEntry f =
      if f = e then { s.sourceEntry e with fanOut := (s.sourceEntry e).fanOut - 1 } else s.sourceEntry f := by
  show (s.setSourceEntry e { s.sourceEntry e with fanOut := (s.sourceEntry e).fanOut - 1 }).sourceEntry f = _
  simp

/-! ### What an effect at one route leaves alone -/

theorem eraseRoute_same (s : State) (r : Route) : SameButRoutes s (s.eraseRoute r) := by
  obtain ⟨q, h⟩ := eraseRoute_eq s r; rw [h]; exact Eq.refl _

theorem releaseHolder_same (c : ReleaseCause) (tell : Bool) (r : Route) (s : State) :
    SameButRoutes s (releaseHolder c tell r s).st :=
  SameButRoutes.trans (t := s.freeSink r.source r.sink) (Eq.refl _) (eraseRoute_same _ r)

theorem releaseWaiter_same (c : ReleaseCause) (tell : Bool) (r : Route) (s : State) :
    SameButRoutes s (releaseWaiter c tell r s).st :=
  SameButRoutes.trans (t := s.leaveClaim r.sink r.id) (Eq.refl _) (eraseRoute_same _ r)

theorem requeue_same (r : Route) (s : State) : SameButRoutes s (requeue r s).st := Eq.refl _

theorem carryOut_same (o : Pending) (r : Route) (s : State) : SameButRoutes s (carryOut o r s).st := by
  unfold carryOut
  split
  · exact releaseHolder_same ..
  · split
    · exact requeue_same ..
    · exact releaseHolder_same ..

theorem suspend_same (c : SuspendCause) (first : Causes) (r : Route) (s : State) : SameButRoutes s (suspend c first r s).st := by
  unfold suspend
  split
  · exact SameButRoutes.rfl s
  · exact Eq.refl _
  · exact Eq.refl _
  · exact Eq.refl _
  · split
    · exact SameButRoutes.rfl s
    · exact Eq.refl _
  · exact carryOut_same ..

theorem resume_same (c : SuspendCause) (r : Route) (s : State) : SameButRoutes s (resume c r s).st := by
  unfold resume
  split
  · split <;> exact Eq.refl _
  · exact SameButRoutes.rfl s

/-! ### One change at each of several routes -/

/-- What every change keeps, the changes at several routes keep. -/
theorem forRoutes_keeps {P : State → Prop} {f : Route → State → Eff} (hf : ∀ r s, P s → P (f r s).st) (ids : List Nat)
    (s : State) (h : P s) : P (forRoutes f ids s).1 := by
  induction ids generalizing s with
  | nil => exact h
  | cons id ids ih =>
    unfold forRoutes
    split
    · exact ih s h
    · exact ih _ (hf _ _ h)

/-- When each change keeps everything but the records of routes, so do all of them together. -/
theorem forRoutes_same {f : Route → State → Eff} (hf : ∀ r s, SameButRoutes s (f r s).st) (ids : List Nat) (s : State) :
    SameButRoutes s (forRoutes f ids s).1 :=
  forRoutes_keeps (P := SameButRoutes s) (fun r t ht => ht.trans (hf r t)) ids s (SameButRoutes.rfl s)

/-! ### The claim queue (R27) -/

/-- The id stands behind the last entry of its priority or more, and in front of entries of lower priority only. -/
theorem insertClaim_spec (prio : Nat → Nat) (p id : Nat) (q : List Nat) :
    ∃ front back, q = front ++ back ∧ insertClaim prio p id q = front ++ id :: back ∧ (∀ y ∈ back, prio y < p) ∧
      ∀ x ∈ front.getLast?, p ≤ prio x := by
  induction q with
  | nil => exact ⟨[], [], rfl, rfl, by simp, by simp⟩
  | cons x xs ih =>
    unfold insertClaim
    split
    · rename_i h
      obtain ⟨front, back, rfl, he, hb, hl⟩ := ih
      refine ⟨x :: front, back, rfl, by rw [he]; rfl, hb, ?_⟩
      cases front with
      | nil =>
        simp only [List.nil_append, List.any_cons, Bool.or_eq_true, decide_eq_true_eq, List.any_eq_true] at h
        rcases h with h | ⟨y, hy, h⟩
        · simpa using h
        · have := hb y hy; omega
      | cons y ys => simpa using hl
    · rename_i h
      refine ⟨[], x :: xs, rfl, rfl, ?_, by simp⟩
      intro y hy
      simp only [Bool.not_eq_true, List.any_eq_false, decide_eq_true_eq] at h
      have := h y hy; omega

@[simp] theorem insertClaim_length (prio : Nat → Nat) (p id : Nat) (q : List Nat) :
    (insertClaim prio p id q).length = q.length + 1 := by
  obtain ⟨front, back, rfl, he, -, -⟩ := insertClaim_spec prio p id q
  rw [he]; simp; omega

end Sys2Proof.Machine
end

