-- ==== Sys2Proof/Laws/Stores.lean ====
section
/-! SUPPORT. What the operations on a ring do, said once: runs of samples in and out, and the marks. -/

namespace Sys2Proof.Machine

/-- A store is changed but in its ring, its positions, its totals, its underruns, episodes and sides. -/
structure SameShape (a b : Store) : Prop where
  capacity : b.capacity = a.capacity
  keepNew  : b.keepNew = a.keepNew
  lowMark  : b.lowMark = a.lowMark
  highMark : b.highMark = a.highMark
  binding  : b.binding = a.binding

/-- STORE_WRITE's run: as many samples as the ring has room for go to the tail. -/
theorem writeRun_spec (xs : List Sample) (st : Store) :
    let w := writeRun xs st
    w.2 = min xs.length (st.samples - st.fill) ∧ w.1.ring = st.ring ++ xs.take w.2 ∧
      w.1.accepted = st.accepted + BitVec.ofNat 32 w.2 ∧
      (w.1.delivered, w.1.discarded, w.1.rejected, w.1.underruns) =
        (st.delivered, st.discarded, st.rejected, st.underruns) ∧ SameShape st w.1 := by
  induction xs generalizing st with
  | nil => exact ⟨by simp [writeRun], by simp [writeRun], by simp [writeRun], rfl, ⟨rfl, rfl, rfl, rfl, rfl⟩⟩
  | cons x xs ih =>
    unfold writeRun
    split
    · rename_i h
      obtain ⟨h1, h2, h3, h4, h5⟩ := ih (acceptSample st x)
      have hs : (acceptSample st x).samples = st.samples := rfl
      have hf : (acceptSample st x).fill = st.fill + 1 := by simp [acceptSample, Store.fill]
      rw [hs, hf] at h1
      refine ⟨?_, ?_, ?_, h4, ⟨h5.1, h5.2, h5.3, h5.4, h5.5⟩⟩
      · simp only [List.length_cons, h1]; omega
      · have hr : (acceptSample st x).ring = st.ring ++ [x] := rfl
        rw [h2, hr, List.append_assoc]; rfl
      · have ha : (acceptSample st x).accepted = st.accepted + 1#32 := rfl
        rw [h3, ha, BitVec.add_assoc]; congr 1
        apply BitVec.eq_of_toNat_eq; simp; omega
    · rename_i h
      refine ⟨?_, by simp, by simp, rfl, ⟨rfl, rfl, rfl, rfl, rfl⟩⟩
      simp only; omega

/-- STORE_READ's run: up to `k` samples leave the head. -/
theorem readRun_spec (k : Nat) (st : Store) :
    let w := readRun k st
    w.2 = st.ring.take k ∧ w.1.ring = st.ring.drop k ∧
      w.1.delivered = st.delivered + BitVec.ofNat 32 (st.ring.take k).length ∧
      (w.1.accepted, w.1.discarded, w.1.rejected, w.1.underruns) =
        (st.accepted, st.discarded, st.rejected, st.underruns) ∧ SameShape st w.1 := by
  induction k generalizing st with
  | zero => exact ⟨by simp [readRun], by simp [readRun], by simp [readRun], rfl, ⟨rfl, rfl, rfl, rfl, rfl⟩⟩
  | succ k ih =>
    unfold readRun deliverSample
    cases h : st.ring with
    | nil => exact ⟨by simp, by simp [h], by simp, rfl, ⟨rfl, rfl, rfl, rfl, rfl⟩⟩
    | cons x xs =>
      have hd : dropHead st = { st with ring := xs, readPos := nextCell st st.readPos } := by simp only [dropHead, h]
      simp only [hd]
      obtain ⟨h1, h2, h3, h4, h5⟩ :=
        ih { st with ring := xs, readPos := nextCell st st.readPos, delivered := st.delivered + 1#32 }
      refine ⟨congrArg (x :: ·) h1, h2, h3.trans ?_, h4, ⟨h5.1, h5.2, h5.3, h5.4, h5.5⟩⟩
      simp only [List.take_succ_cons, List.length_cons]
      rw [BitVec.add_assoc]; congr 1
      apply BitVec.eq_of_toNat_eq; simp; omega

/-- The marks follow the fill and change nothing else of the store. -/
theorem updateMarks_spec (n : Idx) (st : Store) :
    (updateMarks n st).1 =
      if st.capacity = 0 then st
      else { st with aboveLow := decide (st.lowMark < st.fill), atHigh := decide (st.highMark ≤ st.fill) } := by
  unfold updateMarks; split <;> rfl

end Sys2Proof.Machine
end

