-- ==== Sys2Proof/Tests/Slice0.lean ====
section
/-! SUPPORT. Tests: ill-formed commands refused by `Instr.wf`; values and small steps taken from the manual's tables and
worked sequences; and, for every statement with hypotheses, a concrete state and operands that meet them. -/

namespace Sys2Proof.Tests

open Sys2Proof Sys2Proof.Machine

-- The kernel evaluates each test in turn: many at once would each hold a thread.
set_option Elab.async false

/-! ### Ill-formed commands are refused -/

theorem test_wf_refuses_251_parameters : (Instr.storeWrite .hp0 0 (List.replicate 251 0#8)).wf = false := by decide +kernel
theorem test_wf_refuses_good_frame_as_error : (Instr.frameError .hp1 [0x01#8, 0x05#8, 0x00#8, 0x2A#8]).wf = false := by decide +kernel
theorem test_wf_refuses_fetch_as_error : (Instr.frameError .hp1 [0x00#8, 0x05#8]).wf = false := by decide +kernel
theorem test_wf_refuses_known_code_as_unknown : (Instr.unknownCommand .hp0 0x18#8 0 []).wf = false := by decide +kernel
theorem test_wf_refuses_code_zero_as_unknown : (Instr.unknownCommand .hp0 0x00#8 0 []).wf = false := by decide +kernel
theorem test_wf_refuses_long_unknown : (Instr.unknownCommand .hp0 0x19#8 0 (List.replicate 251 0#8)).wf = false := by decide +kernel
theorem test_wf_refuses_discarded_fetch : (Instr.frameDiscarded .hp2 [0x00#8]).wf = false := by decide +kernel
theorem test_wf_refuses_discarded_nothing : (Instr.frameDiscarded .hp2 []).wf = false := by decide +kernel
theorem test_wf_refuses_sync_after_interval :
    (Instr.frameBoundary .fa ⟨⟨128, [128], 0⟩, ⟨128, [0], 0⟩, ⟨128, [0], 0⟩, ⟨128, [0], 0⟩⟩ (.const [])).wf = false := by decide +kernel
theorem test_wf_refuses_timeout_of_route_0 : (Instr.waitTimeout 0).wf = false := by decide +kernel
theorem test_wf_refuses_timeout_of_route_49 : (Instr.waitTimeout 49).wf = false := by decide +kernel
theorem test_wf_takes_250_parameters : (Instr.storeWrite .hp0 0 (List.replicate 250 0#8)).wf = true := by decide +kernel

/-! ### Frames and records (R163, section 10.7.A) -/

theorem test_crc_of_nine_bytes :
    crc8 [0x31#8, 0x32#8, 0x33#8, 0x34#8, 0x35#8, 0x36#8, 0x37#8, 0x38#8, 0x39#8] = 0xF4#8 := by decide +kernel
theorem test_crc_of_one_byte : crc8 [0x01#8] = 0x07#8 := by decide +kernel
theorem test_decode_open_session :
    decodeTransaction .hp1 [0x01#8, 0x05#8, 0x00#8, 0x2A#8] = some (.openSession .hp1 0x05#8 []) := by decide +kernel
theorem test_decode_fetch : decodeTransaction .hp1 [0x00#8, 0x77#8, 0x01#8] = some (.fetch .hp1 2) := by decide +kernel
theorem test_decode_damaged_frame :
    decodeTransaction .hp1 [0x01#8, 0x05#8, 0x00#8, 0x2B#8] =
      some (.frameError .hp1 [0x01#8, 0x05#8, 0x00#8, 0x2B#8]) := by decide +kernel
/-- R145: the bits of 0x2A, most significant first, and three left over. -/
theorem test_bits_msb_first :
    bytesOfBits [false, false, true, false, true, false, true, false, true, true, false] = [0x2A#8] ∧
      bitsOfBytes [0x2A#8] = [false, false, true, false, true, false, true, false] ∧
      decodeWire .hp0 [true, true, true, true, true, true, true] = none := by decide +kernel
/-- Table 9.3: six signals of each port, three of each lane and three more; with 19 power and ground pins 64. -/
theorem test_pins :
    let pins : List Pin :=
      allPorts.flatMap (fun p => [.csn p, .sckn p, .sdin p, .sdon p, .attnn p, .prstn p]) ++
        allLanes.flatMap (fun l => [.bitClock l, .frameSync l, .laneData l]) ++ [.wclk, .xref, .reset]
    pins.Nodup ∧ pins.length + 19 = 64 ∧ (Pin.csn .hp0).level true = false ∧ (Pin.sdon .hp0).level true = true ∧ Pin.reset.level false = true := by decide +kernel
theorem test_encode_connect :
    (encodeTransaction (.connect .hp1 9 [0x06#8, 0x16#8, 1, 4, 0x6E#8, 1, 0, 0])).map (·.take 11) =
      some [0x09#8, 9, 8, 0x06#8, 0x16#8, 1, 4, 0x6E#8, 1, 0, 0] := by decide +kernel
theorem test_response_record :
    Response.record 0xA5#8 { seq := 0x05#8, result := .ok, payload := [0x01#8, 0x01#8, 0x00#8] } =
      [0xA5#8, 0x05#8, 0x00#8, 0x03#8, 0x01#8, 0x01#8, 0x00#8, 0x48#8] := by decide +kernel
theorem test_sample_bytes :
    sampleBytes 0xFFFFFF#24 = [0xFF#8, 0xFF#8, 0xFF#8] ∧ samplesOf [0x80#8, 0, 0, 0x7F#8, 0xFF#8, 0xFF#8] =
      [BitVec.ofInt 24 (-8388608), BitVec.ofInt 24 8388607] := by decide +kernel

/-! ### Tables 0.3, 2.1, 3.1 and section 3.7 -/

theorem test_endpoint_numbers :
    endpoint? 15 = some (.source (.input .i3 .i3)) ∧ endpoint? 16 = some (.sink (.output .i0 .i0)) ∧
      endpoint? 33 = some (.sink (.storeIn .i1)) ∧ endpoint? 39 = some (.source (.storeOut .i3)) ∧ endpoint? 40 = none := by
  decide +kernel
theorem test_default_tags :
    Tag.bytes (State.reset.tagOf (.source (.input .i3 .i3))) = [0x49#8, 0x4E#8, 0x31#8, 0x35#8] ∧
      Tag.bytes (State.reset.tagOf (.sink (.storeIn .i2))) = [0x53#8, 0x49#8, 0x30#8, 0x32#8] := by decide +kernel
theorem test_insertion_by_priority :
    let prio := fun n => if n = 3 ∨ n = 9 then 2 else if n = 5 ∨ n = 8 then 1 else if n = 10 then 3 else 0
    insertClaim prio 1 8 [3, 5] = [3, 5, 8] ∧ insertClaim prio 2 9 [3, 5] = [3, 9, 5] ∧
      insertClaim prio 3 10 [3, 5] = [10, 3, 5] := by decide +kernel
theorem test_route_stage :
    gainCoeff 108 = 4204263 ∧ routeStage 1000000#24 108 = 501187#24 ∧
      routeStage (BitVec.ofInt 24 (-8388608)) 120 = BitVec.ofInt 24 (-8388608) := by decide +kernel
/-- Section 3.7, boundary 1: 501187 at +6 dB gives 1000000. -/
theorem test_trim_stage : trimStage 501187#24 12 = 1000000#24 := by decide +kernel
theorem test_trim_saturates :
    trimStage 0x7FFFFF#24 1 = 0x7FFFFF#24 ∧ (channelAfter ⟨1, 0, 65534⟩ 0x7FFFFF#24).clips = 65535 ∧
      (channelAfter ⟨0, 0, 0⟩ 0x800000#24).peak = 8388608 := by decide +kernel
/-- R138: the thirty-second entry is a LOST marker, and the next event counts in it. -/
theorem test_queue_overflow :
    let full := (List.replicate 32 (Event.rateChanged .fa 3)).foldl EventQueue.put ⟨[], 0⟩
    full.entries.length = 32 ∧ full.marker? = some (31, 1) ∧ (full.put (.rateChanged .fb 2)).marker? = some (31, 2) ∧
      (full.put (.rateChanged .fb 2)).nextSeq = 32 := by decide +kernel
/-- Table 5.3: the eighth good frame in a row, the second bad one. -/
theorem test_framing_judge :
    (laneJudged { Lane.reset with enabled := true, state := .seeking, goodRun := 7 } true).state = .running ∧
      (laneJudged { Lane.reset with enabled := true, state := .running, badRun := 1 } false).state = .fault ∧
      (laneJudged { Lane.reset with enabled := true, state := .running, badRun := 1 } true).badRun = 0 := by decide +kernel
theorem test_times_round_up : xrefToMs 1 = 1 ∧ xrefToMs 24576 = 1 ∧ xrefToMs 24577 = 2 ∧ msToXref 500 = 12288000 := by
  decide +kernel

/-! ### A part at work -/

/-- A lane in use on FA. -/
def laneOn (st : LaneState) (good : Nat) : Lane :=
  { enabled := true, binding := .fa, state := st, goodRun := good, badRun := 0, syncPhase := some 0, wires := .low }

/-- A route of HP0 on FA, ramp rate 1. -/
def aRoute (id : Nat) (e : Source) (t : Sink) (target current : Nat) (st : RouteState) : Route :=
  { id := id, owner := some .hp0, former := none, epoch := 1, source := e, sink := t, domain := .fa, priority := 1,
    flags := ⟨false, true, true⟩, target := target, current := current, rampRate := 1, rampCount := 0, state := st }

def r1 : Route := aRoute 1 (.input .i0 .i0) (.output .i0 .i0) 120 119 .live
def r2 : Route := { aRoute 2 (.input .i0 .i1) (.output .i0 .i0) 100 0 (.waiting (some 24576)) with priority := 0 }
def r3 : Route := { aRoute 3 (.input .i0 .i1) (.output .i0 .i1) 100 0 .armed with owner := some .hp1, flags := ⟨true, false, false⟩ }
def r4 : Route :=
  { aRoute 4 (.input .i0 .i2) (.output .i0 .i2) 100 1 (.rampDown .disconnected) with owner := none, former := some .hp0, flags := ⟨true, false, false⟩ }
def r5 : Route := aRoute 5 (.input .i1 .i0) (.output .i0 .i3) 100 0 (.suspended .sourceDown)
def r6 : Route := aRoute 6 (.storeOut .i0) (.output .i1 .i0) 60 60 .live
def r7 : Route := aRoute 7 (.input .i0 .i3) (.storeIn .i0) 120 120 .live
def r8 : Route := aRoute 8 (.input .i0 .i0) (.output .i1 .i1) 100 1 (.rampDown .preempted)
def r9 : Route := aRoute 9 (.input .i0 .i0) (.output .i1 .i2) 5 4 .rampUp

/-- The holder and claim entries of a route. -/
def placed (s : State) (r : Route) : State :=
  if r.state.holds then s.takeSink r.id r.source r.sink else s.setClaim r.sink (s.claim r.sink ++ [r.id])

/-- A part with FA running, with `r` as its seventh route. -/
def houseOf (r : Route) : State :=
  [r1, r2, r3, r4, r5, r6, r, r8, r9].foldl placed
    { State.reset with
      routes := [r1, r2, r3, r4, r5, r6, r, r8, r9]
      sessions := ⟨⟨true, 1, 7⟩, ⟨true, 1, 1⟩, ⟨false, 0, 0⟩⟩
      queues := ⟨⟨[⟨4, .rateChanged .fa 3⟩, ⟨5, .lost 2⟩], 6⟩, ⟨[], 0⟩, ⟨[], 0⟩⟩
      fa := { rateCode := some .r48000, state := .locked, frameCount := 0xFFFFFFFF#32 }
      inLanes := ⟨laneOn .running 0, laneOn .seeking 7, .reset, .reset⟩
      outLanes := ⟨{ laneOn .running 0 with syncPhase := none }, { laneOn .running 0 with syncPhase := none }, .reset, .reset⟩
      stores :=
        { State.reset.stores with
          q0 :=
            { Store.reset with
              capacity := 1, highMark := 256, ring := [7#24], writePos := 1, accepted := 1, aboveLow := true,
              binding := some .fa } } }

/-- Routes in every state, sound in every sense of the invariants. -/
def house : State := houseOf r7

/-- A command of `house` and its outcome: the responses below are executing afterwards. -/
def after (c : Instr) (s : State) : State :=
  match exec c s with
  | .next t => t
  | .fault _ => s
  | .refused _ => s

/-- The payload of the response that HP0 holds. -/
def answerOf (s : State) : Option (Result × List Byte) :=
  match (s.port .hp0).holder with
  | .executing r => some (r.result, r.payload)
  | .empty => none
  | .ready _ => none
  | .fetched _ => none

/-- House with a clock domain FX that is heard at 48 kHz. -/
def fxHouse (st : FxState) (m : Monitor) : State := { house with fx := { house.fx with external := true, state := st }, monitor := m }

/-! ### The statements' hypotheses are met -/

theorem witness_stepTakes : ({ house with pending := [.clockLost] } : State).pending = .clockLost :: [] ∧
    house.pending = [] ∧ house.resetHeld = false ∧ ({ house with resetHeld := true } : State).resetHeld = true ∧
    house.route? 2 = some r2 ∧ r2.state = .waiting (some 24576) ∧
    (fxHouse (.holdover .r48000 1) ⟨none, false⟩).fx.state = .holdover .r48000 1 := by decide +kernel

/-- `house` with route 2's wait timer at `n`. -/
def waitingFor (n : Nat) : State := house.setRoute { r2 with state := .waiting (some n) }

/-- A command of `house`, one that changes most records. -/
def busyStep : State := { house with pending := [.closeSession .hp0 1 []] }

theorem witness_portsAndQueues : PortsSound busyStep ∧ QueuesSound busyStep ∧ ∃ t, step busyStep = .next t :=
  ⟨by unfold PortsSound PortSound; decide +kernel,
   by unfold QueuesSound QueueSound Event.countSound; decide +kernel, _, rfl⟩

theorem ordered_house : RoutesOrdered house := by unfold RoutesOrdered; decide +kernel

theorem ordered_busyStep : RoutesOrdered busyStep := by unfold RoutesOrdered; decide +kernel

theorem inRange_house : RoutesInRange house := by unfold RoutesInRange RouteInRange stateInRange; decide +kernel

theorem sinks_house : SinksSound house := by unfold SinksSound HolderSound ClaimSound; decide +kernel

theorem storesBound_house : StoresBound house := by unfold StoresBound; decide +kernel

theorem witness_routeRecords :
    RoutesOrdered busyStep ∧ RoutesInRange busyStep ∧ TimeoutsQueued busyStep ∧ ∃ t, step busyStep = .next t :=
  ⟨ordered_busyStep, by unfold RoutesInRange RouteInRange stateInRange; decide +kernel,
   by unfold TimeoutsQueued; decide +kernel, _, rfl⟩

/-- A timer at 0 whose WAIT_TIMEOUT is in the queue. -/
theorem witness_timeoutQueued : TimeoutsQueued { waitingFor 0 with pending := [.waitTimeout 2] } := by
  unfold TimeoutsQueued; decide +kernel

theorem witness_owners :
    RoutesOrdered busyStep ∧ SinksSound busyStep ∧ OwnedCounted busyStep ∧ EpochsCurrent busyStep ∧ OrphansHold busyStep ∧
      ∃ t, step busyStep = .next t :=
  ⟨ordered_busyStep, by unfold SinksSound HolderSound ClaimSound; decide +kernel, by unfold OwnedCounted; decide +kernel, by unfold EpochsCurrent; decide +kernel,
   by unfold OrphansHold; decide +kernel, _, rfl⟩

theorem witness_sinks : RoutesOrdered busyStep ∧ SinksSound busyStep ∧ ∃ t, step busyStep = .next t :=
  ⟨ordered_busyStep, by unfold SinksSound HolderSound ClaimSound; decide +kernel, _, rfl⟩

theorem witness_lanesAndChannels : LanesSound busyStep ∧ ChannelsSound busyStep ∧ ∃ t, step busyStep = .next t :=
  ⟨by unfold LanesSound InLaneSound OutLaneSound; decide +kernel,
   by unfold ChannelsSound ChannelSound; decide +kernel, _, rfl⟩

theorem witness_endpointsBound :
    RoutesOrdered busyStep ∧ LanesBound busyStep ∧ StoresBound busyStep ∧ ∃ t, step busyStep = .next t :=
  ⟨ordered_busyStep, by unfold LanesBound; decide +kernel, by unfold StoresBound; decide +kernel, _, rfl⟩

theorem witness_stores :
    RoutesOrdered busyStep ∧ StoresBound busyStep ∧ StoresSound busyStep ∧ ∃ t, step busyStep = .next t :=
  ⟨ordered_busyStep, by unfold StoresBound; decide +kernel, by unfold StoresSound StoreSound; decide +kernel, _, rfl⟩

/-- FX in HOLDOVER with its last millisecond to run. -/
theorem witness_clocks :
    let s := fxHouse (.holdover .r48000 24576) ⟨none, false⟩
    ClocksSound s ∧ ∃ t, step s = .next t :=
  ⟨⟨(by decide +kernel : IntState.locked = .off ↔ (some Rate.r48000 : Option Rate) = none),
    (by decide +kernel : IntState.locking = .off ↔ (some Rate.r44100 : Option Rate) = none),
    by decide +kernel, by decide +kernel, rfl, by decide +kernel⟩, _, rfl⟩

theorem witness_causes : RoutesOrdered busyStep ∧ CausesAgree busyStep ∧ ∃ t, step busyStep = .next t := by
  have down : ∀ d, newest (RouteReport.aboutDomain d) busyStep = none := fun _ => rfl
  have lane : ∀ i, newest (RouteReport.aboutLane i) busyStep = none := fun _ => rfl
  refine ⟨ordered_busyStep, ⟨?_, ?_, by unfold StoreSourcesUp; decide +kernel⟩, _, rfl⟩
  · simp only [DomainAgrees, down]; decide +kernel
  · simp only [LaneAgrees, lane]; decide +kernel

theorem witness_decode :
    (Instr.setTag .hp2 9 [0x27#8, 0x7E#8]).wf = true ∧ portOf? (.setTag .hp2 9 [0x27#8, 0x7E#8]) = some .hp2 ∧
      (encodeTransaction (.setTag .hp2 9 [0x27#8, 0x7E#8])).isSome = true ∧
      (Instr.frameError .hp0 [0xFF#8]).wf = true ∧ (Instr.unknownCommand .hp0 0x19#8 0 []).wf = true ∧
      portOf? (.fetch .hp1 0) = some .hp1 ∧ encodeTransaction (.fetch .hp1 0) = some [0x00#8] := by decide +kernel

/-- A port that can begin a transaction; seven bits are left over. -/
theorem witness_wires :
    house.takes .hp2 = true ∧ (house.port .hp2).link = .idle ∧ (house.port .hp2).csLow = false ∧
      (house.port .hp2).transfer = none ∧ (List.replicate 7 true).length < 8 := by decide +kernel

/-- The good frame of section 10.7.A with its sequence byte, or its CRC byte, damaged. -/
theorem witness_crcCatches :
    0x05#8 ≠ 0x04#8 ∧ [0x01#8].length ≠ 2 ∧ frameGood ([0x01#8] ++ 0x05#8 :: [0x00#8, 0x2A#8]) = true ∧
      [0x01#8, 0x05#8, 0x00#8].length ≠ 2 ∧ frameGood ([0x01#8, 0x05#8, 0x00#8] ++ 0x2A#8 :: []) = true := by decide +kernel

/-- `house` with the response of a refused command executing, and then ready. -/
def executing : State := house.replied .hp0 3 .badState [] 5

def readyHouse : State := after (.commandCompletes .hp0) executing

theorem witness_fetch :
    house.takes .hp0 = true ∧ (house.port .hp0).holder = .empty ∧
      executing.takes .hp0 = true ∧ (executing.port .hp0).holder = .executing ⟨3, .badState, []⟩ ∧
      readyHouse.takes .hp0 = true ∧ (readyHouse.port .hp0).holder = .ready ⟨3, .badState, []⟩ ∧
      (after (.fetch .hp0 6) readyHouse).takes .hp0 = true ∧
      ((after (.fetch .hp0 6) readyHouse).port .hp0).holder = .fetched ⟨3, .badState, []⟩ := by decide +kernel

/-- Bits clocked in at HP0, SCKn falling after each. -/
def clockIn (bits : List Bool) (s : State) : State :=
  bits.foldl (fun x b => (x.wire .hp0 (.sckRise b)).wire .hp0 .sckFall) s

/-- The first bits of a transaction of HP0. -/
def clocked (s : State) (bits : List Bool) : State := clockIn bits (s.wire .hp0 .csFall)

/-- A FETCH of HP0 in its second byte, with the response ready at its first. -/
def fetching : State := clocked readyHouse (List.replicate 11 false)

/-- Seven bits of a FETCH, one whole byte and three bits, and a transaction ended by PRSTn. -/
theorem witness_fetchOnWires :
    let seven : Transfer := { bits := List.replicate 7 false, fetched := none, outBit := 7 }
    let eleven : Transfer := { bits := List.replicate 11 false, fetched := some (.ready ⟨3, .badState, []⟩), outBit := 11 }
    ((clocked house seven.bits).port .hp0).transfer = some seven ∧ seven.bits.length = 7 ∧
      (∀ a ∈ seven.bits ++ [false], a = false) ∧
      fetching.takes .hp0 = true ∧ (fetching.port .hp0).csLow = true ∧ (fetching.port .hp0).transfer = some eleven ∧
      eleven.bits.length = 8 + 8 * 0 + 3 ∧ (clocked house seven.bits).takes .hp0 = true ∧
      ((clocked house seven.bits).port .hp0).csLow = true ∧ seven.fetched = none ∧
      (house.port .hp0).csLow = false ∧ (after (.portReset .hp0) fetching).takes .hp0 = false := by decide +kernel

theorem sound_fetching : PortSound (fetching.port .hp0) := by unfold PortSound; decide +kernel

/-- R148, R152: a command that completes after the first byte of a FETCH is answered BUSY (0xA1) and stays READY. Of a record
the marker 0xA5, 1010 0101, is sent bit by bit; after the rising edge of CSn the wire is at high impedance. -/
theorem test_completion_in_a_fetch :
    let t := (clockIn (List.replicate 8 false) (after (.commandCompletes .hp0) (clocked executing (List.replicate 8 false)))).wire
      .hp0 .csRise
    (t.port .hp0).holder = .ready ⟨3, .badState, []⟩ ∧ (t.port .hp0).sent = [0xA1#8] ∧ t.sdo .hp0 = none ∧
      fetching.sdo .hp0 = some false ∧ (clockIn [true, true] fetching).sdo .hp0 = some true := by decide +kernel

theorem witness_badFrames :
    house.ready .hp0 = true ∧ isCommandFrame [0xFF#8] = true ∧ frameGood [0xFF#8] = false ∧ 0x19#8 ≠ 0#8 ∧
      24 < (0x19#8).toNat ∧ 24 < (0xFF#8).toNat := by decide +kernel

theorem witness_notTaken :
    executing.takes .hp0 = true ∧ (executing.port .hp0).resetWaiting = false ∧ (executing.port .hp0).holder.busy = true ∧
      (after (.portReset .hp0) house).takes .hp0 = false ∧ (after .deviceReset house).takes .hp2 = false ∧
      hostFrame? (.adopt .hp0 1 [0x30#8]) = some (.hp0, 0x0C#8, 1, [0x30#8]) ∧ knownCode 0x19#8 = false := by decide +kernel

theorem witness_commonChecks :
    house.ready .hp2 = true ∧ (house.session .hp2).isOpen = false ∧
      hostFrame? (.setTag .hp2 1 []) = some (.hp2, 0x04#8, 1, []) ∧ lengthOk 0x04#8 [] = false ∧
      lengthOk 0x04#8 [0, 0, 0, 0, 0] = true ∧ lengthOk 0x04#8 [0, 0, 0, 0, 0, 0] = false ∧
      lengthOk 0x13#8 (0 :: 82#8 :: List.replicate 246 0#8) = true ∧
      lengthOk 0x13#8 (0 :: 83#8 :: List.replicate 248 0#8) = false ∧ (0#8 :: 83#8 :: List.replicate 248 0#8).length ≤ 250 := by
  decide +kernel

/-- HP0 released from its reset while its command still executes. -/
def closing : State := after (.portResetRelease .hp0) (after (.portReset .hp0) executing)

theorem witness_waitingClose :
    closing.takes .hp0 = true ∧ (closing.port .hp0).resetWaiting = true ∧ (closing.port .hp0).holder.busy = true := by
  decide +kernel

theorem witness_refused :
    hostFrame? (.disconnect .hp0 1 [3]) = some (.hp0, 0x0A#8, 1, [3]) ∧ house.ready .hp0 = true ∧
      answerOf (after (.disconnect .hp0 1 [3]) house) = some (.notOwner, []) := by decide +kernel

theorem witness_completes :
    (executing.port .hp0).holder = .executing ⟨3, .badState, []⟩ ∧ (executing.port .hp0).resetWaiting = false ∧
      (after (.portReset .hp0) executing).port .hp0 =
        { link := .held, csLow := false, transfer := none, holder := .executing ⟨3, .badState, []⟩, resetWaiting := true,
          sent := [], stray := 1 } ∧
      (house.port .hp0).holder.busy = false := by decide +kernel

/-- A close that waits, of an open session and of a closed one. -/
theorem witness_completesWaiting :
    let open_ := after (.portReset .hp0) executing
    let closed := after (.portReset .hp2) (house.replied .hp2 3 .noSession [] 5)
    (open_.port .hp0).holder = .executing ⟨3, .badState, []⟩ ∧ (open_.port .hp0).resetWaiting = true ∧
      (open_.session .hp0).isOpen = true ∧ (closed.port .hp2).holder = .executing ⟨3, .noSession, []⟩ ∧
      (closed.port .hp2).resetWaiting = true ∧ (closed.session .hp2).isOpen = false := by decide +kernel

theorem ordered_waitingReset : RoutesOrdered (after (.portReset .hp0) executing) := by unfold RoutesOrdered; decide +kernel

theorem witness_portReset :
    (executing.port .hp0).holder.busy = true ∧
      ((house.port .hp2).holder.busy = false ∧ (house.session .hp2).isOpen = false) ∧
      ((house.port .hp0).holder.busy = false ∧ (house.session .hp0).isOpen = true) ∧
      ((after (.portReset .hp2) house).port .hp2).link = .held := by decide +kernel

theorem witness_portsIndependent :
    portOf? (.closeSession .hp0 1 []) = some .hp0 ∧ Port.hp1 ≠ .hp0 ∧ ∃ t, exec (.closeSession .hp0 1 []) house = .next t :=
  ⟨rfl, by decide, _, rfl⟩

theorem witness_openSession :
    house.ready .hp2 = true ∧ (house.session .hp2).isOpen = false ∧ house.serving .hp0 = true := by decide +kernel

theorem witness_closeSession : house.serving .hp0 = true ∧ RoutesOrdered house := ⟨by decide +kernel, ordered_house⟩

/-- `house` with HP0 at its quota, and with one route below it. -/
def owning (n : Nat) : State := { house with sessions := { house.sessions with p0 := ⟨true, 1, n⟩ } }

theorem witness_adopt :
    (owning 23).serving .hp0 = true ∧ (owning 23).route? (4#8).toNat = some r4 ∧ r4.owner = none ∧
      ((owning 23).session .hp0).owned < 24 ∧ 24 ≤ ((owning 24).session .hp0).owned ∧
      (owning 24).route? (4#8).toNat = some r4 ∧ house.route? (1#8).toNat = some r1 ∧ r1.owner ≠ none ∧
      48 < (49#8).toNat ∧ (0#8).toNat = 0 ∧ house.route? (48#8).toNat = none := by decide +kernel

theorem witness_queries :
    house.serving .hp0 = true ∧ endpoint? (39#8).toNat = some (.source (.storeOut .i3)) ∧
      tagPrintable ⟨0x53, 0x49, 0x30, 0x33⟩ = true ∧
      (allEndpoints.filter fun x => house.tagOf x == ⟨0x53, 0x49, 0x30, 0x33⟩) = .sink (.storeIn .i3) :: [] ∧
      domain? 2#8 = some .fx ∧ house.route? (9#8).toNat = some r9 ∧
      endpoint? (35#8).toNat = some (.sink (.storeIn .i3)) ∧ owner? 0xFF#8 = some none ∧ store? 3#8 = some .i3 ∧
      (16#8).toNat ≤ 16 := by decide +kernel

/-- The refusals of the queries at the bounds of their operands. -/
theorem witness_queriesRefused :
    39 < (40#8).toNat ∧ (0x7F#8 ∈ [0x41#8, 0x42#8, 0x43#8, 0x7F#8] ∧ 0x7E < (0x7F#8).toNat) ∧
      ((∀ c ∈ [0x20#8, 0x20#8, 0x7E#8, 0x7E#8], 0x20 ≤ c.toNat ∧ c.toNat ≤ 0x7E) ∧
        allEndpoints.all fun e => house.tagOf e != ⟨0x20, 0x20, 0x7E, 0x7E⟩) ∧
      2 < (3#8).toNat ∧ 48 < (49#8).toNat ∧ house.route? (48#8).toNat = none ∧ 3 < (4#8).toNat ∧
      (36 ≤ (36#8).toNat ∧ (39#8).toNat ≤ 39 ∧ (15#8).toNat ≤ 15) ∧ (16 ≤ (16#8).toNat ∧ (35#8).toNat ≤ 35) ∧
      3#8 ≠ 0xFF#8 ∧ 16 < (17#8).toNat := by decide +kernel

theorem witness_setTag :
    house.serving .hp0 = true ∧ endpoint? (39#8).toNat = some (.source (.storeOut .i3)) ∧
      (∀ c ∈ [0x20#8, 0x7E#8, 0x41#8, 0x5A#8], 0x20 ≤ c.toNat ∧ c.toNat ≤ 0x7E) ∧
      1 ≤ [0x7E#8].length ∧ [0x20#8, 0x7E#8, 0x41#8, 0x5A#8].length ≤ 4 := by decide +kernel

/-- A part with no routes whose first lanes are enabled. -/
def idle : State := { house with routes := [] }

theorem witness_setLaneEnables :
    house.serving .hp0 = true ∧ lane? 0x47#8 = some (.output .i3) ∧ lane? 0x43#8 = some (.input .i3) ∧
      domain? 2#8 = some .fx ∧
      ((house.lane (.output .i3)).enabled = false ∧ (house.lane (.output .i3)).state = .disabled ∧
        house.routes.any (fun r => usesLane r (.output .i3)) = false) ∧
      ((house.lane (.input .i0)).enabled = true ∧ (house.lane (.input .i0)).binding = .fa) ∧
      (idle.serving .hp0 = true ∧ (idle.lane (.input .i0)).enabled = true ∧ (idle.lane (.input .i0)).binding ≠ .fx ∧
        (idle.lane (.output .i0)).enabled = true ∧ (idle.lane (.output .i0)).binding ≠ .fx ∧
        (idle.lane (.output .i0)).state = .running ∧ idle.routes.any (fun r => usesLane r (.output .i0)) = false) := by
  decide +kernel

theorem lanes_house : LanesSound house := by unfold LanesSound InLaneSound OutLaneSound; decide +kernel

/-- OL1 carries routes of HP0 alone; OL0 one of HP1 as well; OL3 is disabled and carries none; IL1 carries route 5 alone. -/
theorem witness_setLaneDisables :
    house.serving .hp0 = true ∧ lane? 0x45#8 = some (.output .i1) ∧ lane? 0x44#8 = some (.output .i0) ∧
      domain? 0#8 = some .fa ∧
      ((house.lane (.output .i1)).enabled = true ∧ (house.lane (.output .i1)).binding = .fa ∧
        house.routes.any (fun r => usesLane r (.output .i1) && r.owner != some .hp0 && r.owner != none) = false) ∧
      ((house.lane (.output .i0)).enabled = true ∧
        house.routes.any (fun r => usesLane r (.output .i0) && r.owner != some .hp0 && r.owner != none) = true) ∧
      ((house.lane (.output .i3)).enabled = false ∧ house.routes.any (fun r => usesLane r (.output .i3)) = false) ∧
      ((house.lane (.input .i1)).enabled = true ∧ (house.lane (.input .i1)).binding = .fa ∧
        house.routes.any (fun r => usesLane r (.input .i1) && r.owner != some .hp0 && r.owner != none) = false) ∧
      ((house.lane (.output .i1)).binding ≠ .fx ∧ house.routes.any (fun r => usesLane r (.output .i1)) = true ∧
        yesNo? 1#8 ≠ none) ∧
      (0x3F#8).toNat < 0x40 ∧ 0x47 < (0x48#8).toNat ∧ 1 < (2#8).toNat ∧ 2 < (3#8).toNat := by decide +kernel

theorem witness_setRate :
    house.serving .hp0 = true ∧ (5#8).toNat ≤ 5 ∧ house.holderCount .fb = 0 ∧ 2 < (3#8).toNat ∧
      domain? 0#8 = some .fa ∧ 5 < (6#8).toNat ∧ 1 < (2#8).toNat ∧ house.holderCount .fa ≠ 0 ∧
      (domain? 2#8 = some .fx ∧ 1#8 ≠ 0#8 ∧ 1#8 ≠ 6#8) := by decide +kernel

theorem witness_lockComplete :
    State.reset.resetHeld = false ∧ State.reset.fa.state = .locking ∧ State.reset.fb.state = .locking ∧
      (fxHouse (.locking .r96000) ⟨some .r96000, false⟩).fx.state = .locking .r96000 ∧
      State.reset.domainState .fx ≠ .locking := by decide +kernel

theorem witness_wordClock :
    house.resetHeld = false ∧ (house.monitor.clock = none ∧ house.fx.state = .off) ∧
      ((fxHouse .seeking ⟨none, false⟩).monitor.clock = none ∧ (fxHouse .seeking ⟨none, false⟩).fx.state = .seeking) ∧
      (fxHouse (.holdover .r48000 1) ⟨none, false⟩).fx.state = .holdover .r48000 1 ∧
      (fxHouse .seeking ⟨some .r32000, true⟩).monitor = ⟨some .r32000, true⟩ ∧
      ((fxHouse (.locking .r32000) ⟨some .r32000, false⟩).fx.state = .locking .r32000 ∧
        (fxHouse (.locking .r32000) ⟨some .r32000, false⟩).fx.external = true ∧
        (fxHouse (.locking .r32000) ⟨some .r32000, false⟩).monitor.clock ≠ none) ∧
      (fxHouse (.locked .r32000) ⟨some .r32000, false⟩).fx.state = .locked .r32000 := by decide +kernel

/-- The holdover at its end, and with one period left. -/
theorem witness_holdover :
    let s := fxHouse (.holdover .r48000 0) ⟨none, false⟩
    s.resetHeld = false ∧ s.fx.state = .holdover .r48000 0 ∧ s.monitor.clock = none ∧ s.fx.external = true ∧
      ∀ m, (fxHouse (.holdover .r48000 1) ⟨none, false⟩).fx.state ≠ .holdover m 0 := by
  refine ⟨by decide +kernel, by decide +kernel, by decide +kernel, by decide +kernel, fun m h => ?_⟩
  injection h; contradiction

/-- A CONNECT of I0, or of SO0, at the bounds of its values. -/
def asked (sink : Byte) (flags : Byte) (timeout : Nat) : ConnectBytes :=
  { source := 0, sink := sink, priority := 3, flags := flags, target := 120, rampRate := 3, timeout := timeout, domain := none }

/-- A free sink: O7. -/
theorem witness_connectHolder :
    (owning 23).serving .hp0 = true ∧ (asked 23 0 60000).timeout = 256 * (0xEA#8).toNat + (0x60#8).toNat ∧
      ConnectPasses (owning 23) .hp0 (asked 23 0 60000) (.input .i0 .i0) (.output .i1 .i3) .fa 10 ∧
      ((owning 23).sinkEntry (.output .i1 .i3)).holder = none ∧ (owning 23).claim (.output .i1 .i3) = [] :=
  ⟨by decide +kernel, by decide +kernel,
   ⟨by decide +kernel, rfl, by decide +kernel, by decide +kernel, by decide +kernel, by decide +kernel, by decide +kernel,
    by decide +kernel⟩, by decide +kernel, by decide +kernel⟩

/-- `house` with the claim queue of O0 full. -/
def crowded : State :=
  { house with claims := Bank.setSink house.claims (.output .i0 .i0) [2, 11, 12, 13] }

/-- A held sink: O0, with one waiter, with four, with NOWAIT, and preempting against a holder of the same priority. -/
theorem witness_connectWaits :
    house.serving .hp0 = true ∧ (asked 16 0 1).timeout = 256 * (0#8).toNat + (1#8).toNat ∧
      (asked 16 0 1).flags.getLsbD 3 = false ∧ (asked 16 0 1).flags.getLsbD 4 = false ∧
      (house.sinkEntry (.output .i0 .i0)).holder ≠ none ∧ (house.claim (.output .i0 .i0)).length < 4 ∧
      4 ≤ (crowded.claim (.output .i0 .i0)).length ∧ (asked 16 16 0).flags.getLsbD 4 = true ∧
      preemptable house (.output .i0 .i0) 1 = none ∧ 10 ∉ house.claim (.output .i0 .i0) ∧
      10 ∉ crowded.claim (.output .i0 .i0) := by decide +kernel

theorem passes_waits :
    ConnectPasses house .hp0 (asked 16 0 1) (.input .i0 .i0) (.output .i0 .i0) .fa 10 ∧
      ConnectPasses house .hp0 (asked 16 16 0) (.input .i0 .i0) (.output .i0 .i0) .fa 10 ∧
      ConnectPasses crowded .hp0 (asked 16 0 1) (.input .i0 .i0) (.output .i0 .i0) .fa 10 :=
  ⟨⟨by decide +kernel, rfl, by decide +kernel, by decide +kernel, by decide +kernel, by decide +kernel, by decide +kernel,
    by decide +kernel⟩,
   ⟨by decide +kernel, rfl, by decide +kernel, by decide +kernel, by decide +kernel, by decide +kernel, by decide +kernel,
    by decide +kernel⟩,
   ⟨by decide +kernel, rfl, by decide +kernel, by decide +kernel, by decide +kernel, by decide +kernel, by decide +kernel,
    by decide +kernel⟩⟩

/-- A preempting CONNECT to O0, held by the LIVE route 1, and to O3, held by the SUSPENDED route 5. -/
theorem witness_connectPreempts :
    preemptable house (.output .i0 .i0) 3 = some r1 ∧ r1.state = .live ∧
      preemptable house (.output .i0 .i3) 3 = some r5 ∧ r5.state = .suspended .sourceDown ∧
      (asked 16 8 0).flags.getLsbD 3 = true ∧ (asked 16 8 0).timeout = 256 * (0#8).toNat + (0#8).toNat := by decide +kernel

/-- R40: route 1 would wait again, behind nobody, ahead of route 2; with its queue full it would be released. -/
theorem witness_requeues :
    r1.flags.requeue = true ∧ r1.owner = some .hp0 ∧ (house.claim r1.sink).length < 4 ∧ r1.id ∉ house.claim r1.sink ∧
      ¬(crowded.claim r1.sink).length < 4 := by decide +kernel

theorem passes_preempts :
    ConnectPasses house .hp0 (asked 16 8 0) (.input .i0 .i0) (.output .i0 .i0) .fa 10 ∧
      ConnectPasses house .hp0 (asked 19 8 0) (.input .i0 .i0) (.output .i0 .i3) .fa 10 :=
  ⟨⟨by decide +kernel, rfl, by decide +kernel, by decide +kernel, by decide +kernel, by decide +kernel, by decide +kernel,
    by decide +kernel⟩,
   ⟨by decide +kernel, rfl, by decide +kernel, by decide +kernel, by decide +kernel, by decide +kernel, by decide +kernel,
    by decide +kernel⟩⟩

theorem witness_createdRoute :
    RoutesOrdered house ∧ lowestFreeId house.routes = some (aRoute 10 (.storeOut .i1) (.storeIn .i2) 0 0 .armed).id :=
  ⟨ordered_house, by decide +kernel⟩

/-- Every check of R5 to R9 can be the first that fails. -/
theorem witness_connectRefused :
    house.serving .hp0 = true ∧ (asked 16 24 0).flags.getLsbD 3 = true ∧ (asked 16 24 0).flags.getLsbD 4 = true ∧
      32 ≤ (asked 16 32 0).flags.toNat ∧ 39 < (asked 40 0 0).sink.toNat ∧
      connectEndpoints { asked 36 0 0 with source := 16 } = .error .notASource ∧
      connectEndpoints (asked 36 0 0) = .error .notASink ∧
      connectEndpoints { asked 35 0 0 with source := 39 } = .error .loop ∧
      onDisabledLane house (.input .i0 .i0) (.output .i3 .i3) = true ∧
      (onDisabledLane house (.input .i0 .i0) (.storeIn .i1) = false ∧
        onUnconfiguredStore house (.input .i0 .i0) (.storeIn .i1) = true) ∧
      connectDomain { house with inLanes := { house.inLanes with q0 := { laneOn .running 0 with binding := .fb } } }
        (.input .i0 .i0) (.output .i0 .i0) none = none ∧
      24 ≤ ((owning 24).session .hp0).owned ∧ connectDomain house (.input .i0 .i0) (.output .i0 .i0) none = some .fa ∧
      48 ≤ ((List.range 48).map fun i => { r1 with id := i + 1 }).length := by
  refine ⟨by decide +kernel, by decide +kernel, by decide +kernel, by decide +kernel, by decide +kernel, rfl, rfl, rfl, ?_⟩
  decide +kernel

theorem witness_disconnect :
    house.serving .hp0 = true ∧ 48 < (49#8).toNat ∧ house.route? (48#8).toNat = none ∧
      (house.route? 3 = some r3 ∧ r3.owner ≠ some .hp0) ∧
      (house.route? 2 = some r2 ∧ r2.owner = some .hp0 ∧ r2.state = .waiting (some 24576)) ∧
      (house.route? 5 = some r5 ∧ r5.owner = some .hp0 ∧ r5.state = .suspended .sourceDown) ∧
      (house.route? 9 = some r9 ∧ r9.owner = some .hp0 ∧ r9.state = .rampUp) ∧
      (house.route? 8 = some r8 ∧ r8.owner = some .hp0 ∧ r8.state = .rampDown .preempted) ∧
      ((house.setRoute { r8 with state := .rampDown .disconnected }).route? 8 =
        some { r8 with state := .rampDown .disconnected }) := by decide +kernel

theorem witness_release : RoutesOrdered house ∧ r1 ∈ house.routes ∧ r2 ∈ house.routes ∧ r6 ∈ house.routes :=
  ⟨ordered_house, by decide +kernel, by decide +kernel, by decide +kernel⟩

/-- A report that is the oldest about its domain or lane, behind one about another; each concerns routes of `house`. -/
def reported (rep : RouteReport) : State := { house with routeReports := [.domainStop .fx, rep] }

theorem witness_reports :
    ((reported (.domainStop .fa)).routeReports.filter (RouteReport.aboutDomain .fa)).head? = some (.domainStop .fa) ∧
      ((reported (.domainStart .fa)).routeReports.filter (RouteReport.aboutDomain .fa)).head? = some (.domainStart .fa) ∧
      ((reported (.sourcesDown .i0)).routeReports.filter (RouteReport.aboutLane .i0)).head? = some (.sourcesDown .i0) ∧
      ((reported (.sourcesUp .i1)).routeReports.filter (RouteReport.aboutLane .i1)).head? = some (.sourcesUp .i1) ∧
      (house.routeReports.filter (RouteReport.aboutLane .i1)).head? ≠ some (.sourcesUp .i1) := by decide +kernel

theorem ordered_reported (rep : RouteReport) : RoutesOrdered (reported rep) ∧ SinksSound (reported rep) :=
  ⟨ordered_house, sinks_house⟩

/-- O0 freed, with route 2 at the head of its queue. -/
def freed : State := (house.freeSink r1.source r1.sink).dropRoute 1

theorem witness_grant :
    (freed.sinkEntry (.output .i0 .i0)).holder = none ∧ freed.claim (.output .i0 .i0) = 2 :: [] ∧ (2 : Nat) ∉ ([] : List Nat) ∧
      freed.route? 2 = some r2 ∧ r2.sink = .output .i0 .i0 ∧ r2.id = 2 ∧
      (house.sinkEntry (.output .i0 .i0)).holder ≠ none ∧ freed.claim (.storeIn .i3) = [] := by decide +kernel

theorem witness_waitTimeout :
    (waitingFor 0).route? 2 = some { r2 with state := .waiting (some 0) } ∧ (waitingFor 1).route? 2 = some { r2 with state := .waiting (some 1) } ∧
      house.route? 1 = some r1 ∧ r1.state = .live := by
  decide +kernel

theorem witness_laneReports :
    LanesSound house ∧
      (∀ rep ∈ [LaneReport.domainStop .fa, .domainStart .fa],
        ((({ house with laneReports := [.domainStop .fb, rep] } : State).laneReports.filter
          (LaneReport.aboutDomain .fa)).head? = some rep)) ∧
      (house.laneReports.filter (LaneReport.aboutDomain .fa)).head? ≠ some (.domainStop .fa) :=
  ⟨lanes_house, by decide +kernel, by decide +kernel⟩

theorem witness_ramp : r1.rampRate ≤ 3 ∧ r1.rampCount = 0 ∧ r1.current ≠ 120 ∧ r1.current ≠ 0 := by decide +kernel

theorem witness_setGain :
    house.serving .hp0 = true ∧ 120 < (121#8).toNat ∧ (120#8).toNat ≤ 120 ∧ house.route? (48#8).toNat = none ∧
      (house.route? 3 = some r3 ∧ r3.owner ≠ some .hp0) ∧
      (house.route? 8 = some r8 ∧ r8.owner = some .hp0 ∧ r8.state = .rampDown .preempted) ∧
      (house.route? 1 = some r1 ∧ r1.owner = some .hp0 ∧ r1.state = .live) := by decide +kernel

theorem witness_trimAndMeter :
    house.serving .hp0 = true ∧ 24 < (25#8).toNat ∧ (24#8).toNat ≤ 24 ∧ endpoint? (40#8).toNat = none ∧
      endpoint? (36#8).toNat = some (.source (.storeOut .i0)) ∧ endpoint? (35#8).toNat = some (.sink (.storeIn .i3)) ∧
      endpoint? (31#8).toNat = some (.sink (.output .i3 .i3)) := by decide +kernel

theorem witness_boundaries :
    RoutesOrdered house ∧ StoresBound house ∧ RoutesInRange house ∧ SinksSound house ∧ house.running .fa = true ∧
      house.running .fx = false ∧ (house.store .i0).binding = some .fa ∧ (house.store .i0).capacity ≠ 0 ∧
      StoreSound (house.store .i0) :=
  ⟨ordered_house, storesBound_house, inRange_house, sinks_house, by decide +kernel, by decide +kernel, by decide +kernel,
   by decide +kernel, by unfold StoreSound; decide +kernel⟩

/-- `house` with store 1 bound to FA, and a seventh route that ends at SI0. -/
def offering (r : Route) : State :=
  { houseOf r with stores := { house.stores with q1 := { house.stores.q0 with ring := [9#24], binding := some .fa } } }

/-- The seventh route with a store output as its source, and ARMED. -/
def bySo : Route := { r7 with source := .storeOut .i1 }
def armed7 : Route := { r7 with state := .armed, current := 0 }

/-- SI0 is offered a sample of an input lane, of a store output, and none by an ARMED holder. -/
theorem witness_offers :
    (r7 ∈ (offering r7).routes ∧ r7.domain = .fa ∧ r7.state.sounds = true ∧ r7.source = .input .i0 .i3) ∧
      (bySo ∈ (offering bySo).routes ∧ bySo.sink = .storeIn .i0 ∧ bySo.state.sounds = true ∧
        ((offering bySo).store .i1).binding = some .fa) ∧
      (∀ r ∈ (offering armed7).routes, r.sink = .storeIn .i0 → r.state.sounds = true → r.domain ≠ .fa) ∧
      ∀ r ∈ [r7, bySo, armed7], (offering r).running .fa = true ∧ ((offering r).store .i0).binding = some .fa ∧
        ((offering r).store .i0).capacity ≠ 0 := by decide +kernel

theorem ordered_offering : RoutesOrdered (offering r7) ∧ RoutesOrdered (offering bySo) ∧ RoutesOrdered (offering armed7) := by
  unfold RoutesOrdered; decide +kernel

theorem inRange_offering : RoutesInRange (offering r7) ∧ RoutesInRange (offering bySo) ∧ RoutesInRange (offering armed7) := by
  unfold RoutesInRange RouteInRange stateInRange; decide +kernel

theorem sinks_offering : SinksSound (offering r7) ∧ SinksSound (offering bySo) ∧ SinksSound (offering armed7) :=
  ⟨by unfold SinksSound HolderSound ClaimSound; decide +kernel, by unfold SinksSound HolderSound ClaimSound; decide +kernel,
   by unfold SinksSound HolderSound ClaimSound; decide +kernel⟩

theorem store_offering :
    StoreSound ((offering r7).store .i0) ∧ StoreSound ((offering bySo).store .i0) ∧ StoreSound ((offering armed7).store .i0) := by
  unfold StoreSound; decide +kernel

/-- The clauses of the samples statement: an input lane in RUNNING and one in SEEKING, channels with a holder on an input and
on a store, and one without. -/
theorem witness_samples :
    (house.inLanes.get .i0).state = .running ∧ (house.inLanes.get .i1).state = .seeking ∧
      (house.outLanes.get .i1).enabled = true ∧ (house.outLanes.get .i1).binding = .fa ∧
      (r6 ∈ house.routes ∧ r6.sink = .output .i1 .i0 ∧ r6.state.sounds = true ∧ r6.source = .storeOut .i0) ∧
      (r9 ∈ house.routes ∧ r9.sink = .output .i1 .i2 ∧ r9.state.sounds = true ∧ r9.source = .input .i0 .i0) ∧
      (∀ r ∈ house.routes, r.sink = .output .i1 .i3 → r.state.sounds = true → r.domain ≠ .fa) := by decide +kernel

theorem witness_configureStore :
    house.serving .hp0 = true ∧ 3 < (4#8).toNat ∧ 64 < (65#8).toNat ∧ 1 < (2#8).toNat ∧ store? 3#8 = some .i3 ∧
      yesNo? 1#8 = some true ∧ (63#8).toNat ≤ 64 ∧
      house.routes.any (fun r => r.source == .storeOut .i0 || r.sink == .storeIn .i0) = true ∧
      house.routes.any (fun r => r.source == .storeOut .i3 || r.sink == .storeIn .i3) = false ∧
      (Idx.all.filter (· ≠ .i3)).foldl (fun k m => k + (house.store m).capacity) 0 = 1 ∧ 64 < 1 + (64#8).toNat ∧
      1 + (63#8).toNat ≤ 64 ∧ (63#8 ≠ 0#8 → 0 < 16128 ∧ 16128 ≤ (63#8).toNat * 256) ∧
      (house.store .i3).binding = none := by decide +kernel

/-- A configured store that no route uses, with one sample. -/
def stored : State := { house with stores := { house.stores with q3 := { house.stores.q0 with binding := none } } }

theorem witness_hostTransfers :
    stored.serving .hp0 = true ∧ store? 3#8 = some .i3 ∧ (stored.store .i3).capacity ≠ 0 ∧
      1 ≤ (80#8).toNat ∧ (80#8).toNat ≤ 80 ∧
      (List.replicate 240 0#8).length = 3 * (80#8).toNat ∧ (stored.sinkEntry (.storeIn .i3)).holder = none ∧
      stored.feedCount (.storeOut .i3) = 0 := by decide +kernel

/-- The refusals: counts and store numbers out of range, a store not configured, and one that routes hold at both ends. -/
theorem witness_hostTransfersRefused :
    house.serving .hp0 = true ∧ 3 < (4#8).toNat ∧ 80 < (81#8).toNat ∧
      (List.replicate 243 0#8).length = 3 * (81#8).toNat ∧ (List.replicate 243 0#8).length ≤ 248 ∧
      store? 1#8 = some .i1 ∧ (house.store .i1).capacity = 0 ∧ store? 0#8 = some .i0 ∧ (house.store .i0).capacity ≠ 0 ∧
      (house.sinkEntry (.storeIn .i0)).holder ≠ none ∧
      house.routes.any (fun r => r.source == .storeOut .i0 && r.state.holds) = true := by decide +kernel

theorem sound_stored : StoreSound (stored.store .i3) := by unfold StoreSound; decide +kernel

/-- A queue of `n` events. -/
def queueOf (n : Nat) : EventQueue := (List.replicate n (Event.rateChanged .fa 3)).foldl EventQueue.put ⟨[], 0⟩

theorem witness_queues :
    QueueSound (queueOf 30) ∧ QueueSound (queueOf 31) ∧ QueueSound (queueOf 32) ∧
      ((queueOf 30).marker? = none ∧ (queueOf 30).entries.length < 31) ∧
      ((queueOf 31).marker? = none ∧ (queueOf 31).entries.length = 31) ∧
      (queueOf 32).entries = (queueOf 32).entries.dropLast ++ [⟨31, .lost 1⟩] := by
  unfold QueueSound Event.countSound; decide +kernel

theorem witness_ackEvents :
    house.serving .hp0 = true ∧ (house.queue .hp0).entries = [⟨4, .rateChanged .fa 3⟩] ++ ⟨5, .lost 2⟩ :: [] ∧
      (5 : BitVec 16).toNat = 256 * (0#8).toNat + (5#8).toNat ∧
      ∀ e ∈ (house.queue .hp0).entries, e.seq.toNat ≠ 256 * (0#8).toNat + (6#8).toNat := by decide +kernel

theorem queueSound_house : QueueSound (house.queue .hp0) := by unfold QueueSound Event.countSound; decide +kernel

theorem witness_recordsChange : Instr.clockLost ≠ .deviceReset ∧ ∃ t, exec .clockLost house = .next t := ⟨by decide, _, rfl⟩

/-! ### One step of a command, on small states, by the manual's rules -/

/-- Section 10.7.A: HP1 opens its first session after device reset. -/
theorem test_first_open :
    ((after (.openSession .hp1 5 []) State.reset).port .hp1).holder = .executing ⟨5, .ok, [1, 1, 0]⟩ := by decide +kernel
/-- R19: Table 1.4, the row of LIVE. -/
theorem test_disconnect_live :
    (after (.disconnect .hp0 1 [1]) house).route? 1 = some { r1 with state := .rampDown .disconnected } := by decide +kernel
/-- R70: the frame count goes from 4294967295 to 0; R53: a LIVE route one step from its target arrives with count 0. -/
theorem test_boundary :
    let t := after (.frameBoundary .fa (.const ⟨128, [0], 0⟩) (.const [])) house
    t.frameCount .fa = 0 ∧ (t.route? 1).map (·.current) = some 120 ∧ (t.route? 9).map (·.state) = some .live ∧
      t.route? 4 = none ∧ (t.route? 8).map (·.state) = some (.waiting none) ∧ (t.inLanes.get .i1).state = .running := by
  decide +kernel
/-- R35, R44: a timer at 0 is released; one with time left is not. -/
theorem test_grant_and_timeout :
    (after (.grant (.output .i0 .i0)) freed).route? 2 = some { r2 with state := .armed } ∧
      (after (.waitTimeout 2) (waitingFor 0)).route? 2 = none ∧
      (after (.waitTimeout 2) (waitingFor 0)).claim (.output .i0 .i0) = [] ∧ after (.waitTimeout 2) house = house := by
  decide +kernel
/-- R43, R44, R76, R77: the last period of a wait timer and of the holdover brings their happenings into the queue. -/
theorem test_last_period :
    (waitingFor 1).tick.pending = [.waitTimeout 2] ∧ (waitingFor 2).tick.pending = [] ∧
      (fxHouse (.holdover .r48000 1) ⟨none, false⟩).tick.pending = [.holdoverExpired] := by decide +kernel
/-- R24, R132, Table 10.8: the report of the orphan 4 on O2, owner NONE and the epoch it kept. -/
theorem test_orphan_report :
    house.routeReport r4 = [4, 0xFF#8, 1, 2, 18, 0, 1, 1, 100, 1, 1, 0, 5, 0, 1, 0, 0, 0] := by decide +kernel
/-- R96: the frame sync marks bit 0; slot 1, from bit 32 on, carries 0x800001 and eight zeros. -/
theorem test_lane_frame :
    let x := Sending.frame (packFrame ⟨0#24, 0x800001#24, 0#24, 0#24⟩)
    (List.range 128).filter (fun n => x.asserted .frameSync n false) = [0] ∧
      (List.range 128).filter (fun n => x.asserted .data n true) = [32, 55] := by decide +kernel
/-- Table 7.2: the close of HP0's session counts 2 released (routes 2 and 5), and 5 wound down; the orphan 4 and HP1's route
stay. -/
theorem test_close :
    answerOf (after (.closeSession .hp0 1 []) house) = some (.ok, [2, 5, 0, 7]) := by decide +kernel
/-- R76: 500 ms of holdover. -/
theorem test_clock_lost :
    (after .clockLost (fxHouse (.locked .r44100) ⟨some .r44100, false⟩)).fx.state = .holdover .r44100 12288000 := by
  decide +kernel
/-- R114: the one sample held and the two written. -/
theorem test_store_write :
    answerOf (after (.storeWrite .hp0 1 [3, 2, 0, 0, 1, 0xFF#8, 0xFF#8, 0xFF#8]) stored) = some (.ok, [3, 2, 0, 3]) := by
  decide +kernel

end Sys2Proof.Tests
end

section
/-! The step of an empty queue: the timers that stand at 0 after a period of XREF are those that stood at 1 or 0 before it. -/

namespace Sys2Proof.Machine

/-- The wait timers that are due after a period, by their counts before it (R43, R44). -/
theorem timersDue_countTimers (s : State) :
    s.countTimers.timersDue =
      (s.routes.filter fun r => match r.state with
        | .waiting (some n) => decide (n ≤ 1)
        | _ => false).map (fun r => .waitTimeout r.id) ++
      (if (match s.fx.state with
        | .holdover _ n => decide (n ≤ 1)
        | _ => false) then [.holdoverExpired] else []) := by
  have hle (n : Nat) : (n - 1 == 0) = decide (n ≤ 1) := by
    rw [Bool.eq_iff_iff, beq_iff_eq, decide_eq_true_eq]; omega
  unfold State.timersDue State.countTimers
  congr 1
  · rw [List.filter_map, List.map_map]
    congr 1
    · funext r
      simp only [Function.comp]
      split <;> rfl
    · congr 1
      funext r
      rcases h : r.state with (_ | n) | _ | _ | _ | _ | _ <;> simp [Function.comp, Route.timedOut, h, hle]
  · cases h : s.fx.state <;> simp [FxState.holdoverOver, h, hle]

/-- Settles O1, by the equations of a period of XREF. -/
theorem stepTakesFrontCommand : Obligations.StepTakesFrontCommand := by
  refine ⟨fun c rest s h => ?_, fun s h hr => ?_, fun s h hr => ?_⟩
  · simp only [step, h]
  · simp only [step, h, State.tick_resetHeld hr]
  · simp only [step, h, State.tick_eq hr, timersDue_countTimers]
    rfl

end Sys2Proof.Machine
end

section
/-! The Route Table as a list of records with distinct ids: what replacing, dropping and inserting one record do to the
order of the ids and to a count over the records. -/

namespace Sys2Proof.Machine

/-! ### Distinct ids (R2) -/

/-- Ids taken from a table in order, none twice, are in order. -/
theorem RoutesOrdered.of_ids {s t : State} (h : RoutesOrdered s)
    (hids : (t.routes.map (·.id)).Sublist (s.routes.map (·.id))) : RoutesOrdered t := by
  refine ⟨h.1.sublist hids, fun r hr => ?_⟩
  obtain ⟨x, hx, he⟩ := List.mem_map.mp (hids.subset (List.mem_map_of_mem hr))
  exact he ▸ h.2 x hx

theorem RoutesOrdered.id_inj {s : State} (h : RoutesOrdered s) {a b : Route} (ha : a ∈ s.routes) (hb : b ∈ s.routes)
    (he : a.id = b.id) : a = b := by
  have hab := State.route?_of_mem h ha
  rw [he, State.route?_of_mem h hb] at hab
  exact (Option.some.inj hab).symm

theorem RoutesOrdered.nodup {s : State} (h : RoutesOrdered s) : s.routes.Nodup :=
  (List.pairwise_map.mp h.1).imp fun {_ _} hlt => fun he => Nat.ne_of_lt hlt (congrArg Route.id he)

theorem RoutesOrdered.setRoute {s : State} (h : RoutesOrdered s) (r : Route) : RoutesOrdered (s.setRoute r) := by
  have hids : (s.setRoute r).routes.map (·.id) = s.routes.map (·.id) := by
    rw [State.setRoute_routes, List.map_map]
    refine List.map_congr_left fun x _ => ?_
    by_cases hx : x.id = r.id <;> simp [hx]
  exact h.of_ids (hids ▸ List.Sublist.refl _)

theorem RoutesOrdered.dropRoute {s : State} (h : RoutesOrdered s) (id : Nat) : RoutesOrdered (s.dropRoute id) :=
  h.of_ids (List.filter_sublist.map _)

theorem nodup_idsWhere {s : State} (h : RoutesOrdered s) (f : Route → Bool) : (s.idsWhere f).Nodup :=
  (h.1.sublist (List.filter_sublist.map _)).imp Nat.ne_of_lt

theorem mem_idsWhere {s : State} {f : Route → Bool} {id : Nat} :
    id ∈ s.idsWhere f ↔ ∃ r ∈ s.routes, f r = true ∧ r.id = id := by
  simp [State.idsWhere, and_assoc]

/-- With distinct ids, the ids that satisfy a test are those of the records that do. -/
theorem id_mem_idsWhere {s : State} (h : RoutesOrdered s) {f : Route → Bool} {r : Route} (hr : r ∈ s.routes) :
    r.id ∈ s.idsWhere f ↔ f r = true := by
  rw [mem_idsWhere]
  constructor
  · rintro ⟨x, hx, hf, he⟩
    exact h.id_inj hx hr he ▸ hf
  · exact fun hf => ⟨r, hr, hf, rfl⟩

/-! ### One record replaced or dropped -/

/-- A record of the table after one was replaced is the new one, or was there under another id. -/
theorem mem_setRoute {s : State} {r x : Route} (h : x ∈ (s.setRoute r).routes) :
    x = r ∨ x ∈ s.routes ∧ x.id ≠ r.id := by
  obtain ⟨y, hy, he⟩ := List.mem_map.mp h
  by_cases hid : y.id = r.id
  · exact .inl (by simpa [hid] using he.symm)
  · obtain rfl : y = x := by simpa [hid] using he
    exact .inr ⟨hy, hid⟩

/-- A replaced record stands in the table. -/
theorem mem_setRoute_self {s : State} {r r' : Route} (hr : r ∈ s.routes) (hid : r'.id = r.id) :
    r' ∈ (s.setRoute r').routes :=
  List.mem_map.mpr ⟨r, hr, if_pos hid.symm⟩

theorem mem_eraseRoute {s : State} {r x : Route} : x ∈ (s.eraseRoute r).routes ↔ x ∈ s.routes ∧ x.id ≠ r.id := by
  simp

theorem dropRoute_setRoute (s : State) (r : Route) : (s.setRoute r).dropRoute r.id = s.dropRoute r.id := by
  have hroutes : ((s.setRoute r).dropRoute r.id).routes = (s.dropRoute r.id).routes := by
    simp only [State.dropRoute_routes, State.setRoute_routes]
    induction s.routes with
    | nil => rfl
    | cons x xs ih =>
      by_cases hx : x.id = r.id <;> simp [hx, ih]
  exact congrArg (fun rs => { s with routes := rs }) hroutes

/-- A count over the table is the share of one record and the count over the others. -/
theorem countP_dropRoute {s : State} (h : RoutesOrdered s) {r : Route} (hr : r ∈ s.routes) (f : Route → Bool) :
    s.routes.countP f = (s.dropRoute r.id).routes.countP f + if f r then 1 else 0 := by
  have hrest : (s.dropRoute r.id).routes = s.routes.erase r := by
    rw [h.nodup.erase_eq_filter, State.dropRoute_routes]
    refine List.filter_congr fun x hx => ?_
    rw [Bool.eq_iff_iff]
    simp only [bne_iff_ne, ne_eq]
    exact not_congr ⟨h.id_inj hx hr, congrArg _⟩
  rw [hrest, (List.perm_cons_erase hr).countP_eq f, List.countP_cons]

/-- A count over the table after a record was replaced: the others' count and the share of the new record. -/
theorem countP_setRoute {s : State} (h : RoutesOrdered s) {r r' : Route} (hr : r ∈ s.routes) (hid : r'.id = r.id)
    (f : Route → Bool) :
    (s.setRoute r').routes.countP f = (s.dropRoute r.id).routes.countP f + if f r' then 1 else 0 := by
  rw [countP_dropRoute (h.setRoute r') (mem_setRoute_self hr hid) f, dropRoute_setRoute, hid]

/-! ### A record inserted (R10) -/

theorem insertRoute_perm (r : Route) (rs : List Route) : (insertRoute r rs).Perm (r :: rs) := by
  induction rs with
  | nil => exact .refl _
  | cons x xs ih =>
    unfold insertRoute
    split
    · exact .refl _
    · exact (ih.cons x).trans (.swap r x xs)

theorem insertRoute_ids_ascend {r : Route} {rs : List Route} (h : (rs.map (·.id)).Pairwise (· < ·))
    (hfresh : ∀ x ∈ rs, x.id ≠ r.id) : ((insertRoute r rs).map (·.id)).Pairwise (· < ·) := by
  induction rs with
  | nil => simp [insertRoute]
  | cons x xs ih =>
    obtain ⟨hx, hxs⟩ := List.pairwise_cons.mp h
    unfold insertRoute
    split
    · next hlt =>
      refine List.pairwise_cons.mpr ⟨fun i hi => ?_, h⟩
      rcases List.mem_cons.mp hi with rfl | hi
      · exact hlt
      · exact Nat.lt_trans hlt (hx i hi)
    · next hge =>
      refine List.pairwise_cons.mpr ⟨fun i hi => ?_, ih hxs fun y hy => hfresh y (List.mem_cons_of_mem _ hy)⟩
      obtain ⟨y, hy, rfl⟩ := List.mem_map.mp hi
      rcases mem_insertRoute.mp hy with rfl | hy
      · exact Nat.lt_of_le_of_ne (Nat.le_of_not_lt hge) (hfresh x (List.mem_cons_self ..))
      · exact hx _ (List.mem_map_of_mem hy)

theorem RoutesOrdered.insertRoute {s : State} (h : RoutesOrdered s) {r : Route} (hfresh : ∀ x ∈ s.routes, x.id ≠ r.id)
    (hid : 1 ≤ r.id ∧ r.id ≤ 48) : RoutesOrdered { s with routes := insertRoute r s.routes } := by
  refine ⟨insertRoute_ids_ascend h.1 hfresh, fun x hx => ?_⟩
  rcases mem_insertRoute.mp hx with rfl | hx
  · exact hid
  · exact h.2 x hx

/-! ### One change at each of several routes -/

/-- The induction on the ids that are still to come: an id no route holds is passed over, and the change at a standing
route takes what holds before it to what holds after it. -/
theorem forRoutes_induction {P : List Nat → State → Prop} {f : Route → State → Eff}
    (hgone : ∀ id ids s, s.route? id = none → P (id :: ids) s → P ids s)
    (hstep : ∀ r ids s, r ∈ s.routes → P (r.id :: ids) s → P ids (f r s).st) (ids : List Nat) (s : State)
    (h : P ids s) : P [] (forRoutes f ids s).1 := by
  induction ids generalizing s with
  | nil => exact h
  | cons id ids ih =>
    unfold forRoutes
    split
    · next hn => exact ih s (hgone id ids s hn h)
    · next r hr =>
      obtain ⟨rfl, hm⟩ := State.route?_some hr
      exact ih _ (hstep r ids s hm h)

/-- What the change at every standing route keeps, the changes at several routes keep. -/
theorem forRoutes_keeps_of_mem {P : State → Prop} {f : Route → State → Eff}
    (hf : ∀ r s, r ∈ s.routes → P s → P (f r s).st) (ids : List Nat) (s : State) (h : P s) : P (forRoutes f ids s).1 :=
  forRoutes_induction (P := fun _ => P) (fun _ _ _ _ hp => hp) (fun r _ s hr hp => hf r s hr hp) ids s h

end Sys2Proof.Machine
end

section
/-! The agreement of owners with the Route Table, as one predicate on the table and the sessions, and what the changes of
a record, of the table and of a session do to it. A close and an adoption break the count of one port on their way, so the
predicate says which ports' counts agree. -/

namespace Sys2Proof.Machine

/-! ### The operations that reach neither the table nor the sessions -/

/-- The Route Table and the sessions of `t` are those of `s`. -/
structure SameOwners (s t : State) : Prop where
  routes   : t.routes = s.routes
  sessions : t.sessions = s.sessions

theorem SameOwners.refl (s : State) : SameOwners s s := ⟨rfl, rfl⟩

theorem SameOwners.trans {s t u : State} (h : SameOwners s t) (h' : SameOwners t u) : SameOwners s u :=
  ⟨h'.routes.trans h.routes, h'.sessions.trans h.sessions⟩

theorem SameOwners.post {s t : State} (h : SameOwners s t) (es : List Emit) : SameOwners s (t.post es) := by
  rw [State.post_eq]; exact ⟨h.routes, h.sessions⟩

theorem SameOwners.postRuns {s t : State} (h : SameOwners s t) (order : Picks) (runs : List (List Emit)) :
    SameOwners s (t.postRuns order runs) := by
  rw [State.postRuns_eq]; exact ⟨h.routes, h.sessions⟩

/-! ### The agreement -/

/-- What OrphansHold asks of one route (R128). -/
def OrphanSound (r : Route) : Prop :=
  (r.owner = none ↔ r.former ≠ none) ∧
    (r.owner = none →
      r.state.holds = true ∧ r.flags.requeue = false ∧ (r.flags.persist = true ∨ r.state = .rampDown .disconnected))

/-- How many routes of the table a port owns. -/
def State.ownedBy (s : State) (p : Port) : Nat := s.routes.countP fun r => r.owner == some p

theorem ownedBy_eq_zero {s : State} {p : Port} : s.ownedBy p = 0 ↔ ∀ r ∈ s.routes, r.owner ≠ some p := by
  simp [State.ownedBy, List.countP_eq_zero]

/-- The session record of a port that owns `n` routes (R122). -/
structure CountSound (x : Session) (n : Nat) : Prop where
  count  : x.owned = n
  quota  : x.owned ≤ 24
  closed : x.isOpen = false → x.owned = 0

/-- Ids are in order, the counts of the ports in `W` agree with the table, owned routes carry their session's epoch, and
orphans hold their sinks. -/
structure OwnersAgree (W : Port → Prop) (s : State) : Prop where
  ordered : RoutesOrdered s
  counts  : ∀ q, W q → CountSound (s.session q) (s.ownedBy q)
  epochs  : ∀ q, ∀ r ∈ s.routes, r.owner = some q → r.epoch = (s.session q).epoch
  orphans : ∀ r ∈ s.routes, OrphanSound r

/-- The agreement of every port's count. -/
abbrev OwnersSound (s : State) : Prop := OwnersAgree (fun _ => True) s

theorem mem_allPorts (p : Port) : p ∈ allPorts := by cases p <;> decide

theorem ownersSound_iff {s : State} :
    OwnersSound s ↔ RoutesOrdered s ∧ OwnedCounted s ∧ EpochsCurrent s ∧ OrphansHold s := by
  constructor
  · intro h
    exact ⟨h.ordered, fun p _ => ⟨(h.counts p trivial).count, (h.counts p trivial).quota, (h.counts p trivial).closed⟩,
      fun p _ => h.epochs p, h.orphans⟩
  · rintro ⟨ho, hc, he, hr⟩
    refine ⟨ho, fun p _ => ?_, fun p => he p (mem_allPorts p), hr⟩
    obtain ⟨hcount, hquota, hclosed⟩ := hc p (mem_allPorts p)
    exact ⟨hcount, hquota, hclosed⟩

namespace OwnersAgree

variable {W W' : Port → Prop} {s t : State}

theorem mono (h : OwnersAgree W s) (hW : ∀ q, W' q → W q) : OwnersAgree W' s :=
  ⟨h.ordered, fun q hq => h.counts q (hW q hq), h.epochs, h.orphans⟩

/-- The agreement is about the table and the sessions alone. -/
theorem of_same (h : OwnersAgree W s) (hst : SameOwners s t) : OwnersAgree W t := by
  obtain ⟨ho, hc, he, hr⟩ := h
  obtain ⟨hroutes, hsessions⟩ := hst
  unfold RoutesOrdered at ho
  unfold State.session State.ownedBy at hc
  unfold State.session at he
  rw [← hroutes] at ho hc he hr
  rw [← hsessions] at hc he
  exact ⟨ho, hc, he, hr⟩

theorem post (h : OwnersAgree W s) (es : List Emit) : OwnersAgree W (s.post es) :=
  h.of_same ((SameOwners.refl s).post es)

theorem postRuns (h : OwnersAgree W s) (order : Picks) (runs : List (List Emit)) :
    OwnersAgree W (s.postRuns order runs) :=
  h.of_same ((SameOwners.refl s).postRuns order runs)

/-! ### A session changed -/

/-- The session of `p` becomes `x`: the count of `p` is judged afresh where it matters. -/
theorem setSession {p : Port} {x : Session} (h : OwnersAgree W s) (hW : ∀ q, W' q → q ≠ p → W q)
    (hp : W' p → CountSound x (s.ownedBy p)) (he : ∀ r ∈ s.routes, r.owner = some p → r.epoch = x.epoch) :
    OwnersAgree W' (s.setSession p x) := by
  refine ⟨h.ordered, fun q hq => ?_, fun q r hr hown => ?_, h.orphans⟩
  · rw [State.session_setSession]
    split
    · next hqp => subst hqp; exact hp hq
    · next hqp => exact h.counts q (hW q hq hqp)
  · rw [State.session_setSession]
    split
    · next hqp => subst hqp; exact he r hr hown
    · exact h.epochs q r hr hown

/-! ### A record replaced -/

/-- A record is replaced by one with the same owner, as far as the counts that agree can tell. -/
theorem setRoute {r r' : Route} (h : OwnersAgree W s) (hr : r ∈ s.routes) (hid : r'.id = r.id)
    (hown : ∀ q, W q → (r'.owner = some q ↔ r.owner = some q))
    (he : ∀ q, r'.owner = some q → r'.epoch = (s.session q).epoch) (ho : OrphanSound r') :
    OwnersAgree W (s.setRoute r') := by
  refine ⟨h.ordered.setRoute r', fun q hq => ?_, fun q x hx hxo => ?_, fun x hx => ?_⟩
  · have hcount : (s.setRoute r').ownedBy q = s.ownedBy q := by
      unfold State.ownedBy
      rw [countP_setRoute h.ordered hr hid, countP_dropRoute h.ordered hr]
      simp [hown q hq]
    rw [hcount]
    exact h.counts q hq
  · rcases mem_setRoute hx with rfl | ⟨hx, -⟩
    · exact he q hxo
    · exact h.epochs q x hx hxo
  · rcases mem_setRoute hx with rfl | ⟨hx, -⟩
    · exact ho
    · exact h.orphans x hx

end OwnersAgree

/-- Two records of one route that differ neither in what says whose it is nor in its flags. -/
structure SameOwnership (a b : Route) : Prop where
  id     : b.id = a.id
  owner  : b.owner = a.owner
  former : b.former = a.former
  epoch  : b.epoch = a.epoch
  flags  : b.flags = a.flags

theorem SameOwnership.refl (r : Route) : SameOwnership r r := ⟨rfl, rfl, rfl, rfl, rfl⟩

/-- An orphan may change its state while it holds its sink, and once it winds down to its release it goes on to it. -/
theorem OrphanSound.move {r r' : Route} (h : OrphanSound r) (hs : SameOwnership r r')
    (hst : r.owner = none → r.state.holds = true →
      r'.state.holds = true ∧ (r.state = .rampDown .disconnected → r'.state = .rampDown .disconnected)) :
    OrphanSound r' := by
  obtain ⟨hformer, horphan⟩ := h
  refine ⟨by rw [hs.owner, hs.former]; exact hformer, fun ho => ?_⟩
  have hro : r.owner = none := hs.owner ▸ ho
  obtain ⟨hholds, hrequeue, hends⟩ := horphan hro
  obtain ⟨hholds', hdown⟩ := hst hro hholds
  refine ⟨hholds', ?_, hends.imp ?_ hdown⟩
  · rw [hs.flags]; exact hrequeue
  · rw [hs.flags]; exact id

/-- A route with an owner may change its state in any way. -/
theorem OrphanSound.move_of_owned {r r' : Route} (h : OrphanSound r) (hs : SameOwnership r r') (ho : r.owner ≠ none) :
    OrphanSound r' :=
  h.move hs fun hn => absurd hn ho

/-- A waiting route has an owner (R128). -/
theorem OrphanSound.owned_of_waiting {r : Route} (h : OrphanSound r) (hw : r.state.holds = false) : r.owner ≠ none := by
  intro ho
  have := (h.2 ho).1
  simp [hw] at this

namespace OwnersAgree

variable {W : Port → Prop} {s : State}

/-- A record is replaced by one of the same ownership, in a state an orphan may have. -/
theorem setRoute_same {r r' : Route} (h : OwnersAgree W s) (hr : r ∈ s.routes) (hs : SameOwnership r r')
    (ho : OrphanSound r') : OwnersAgree W (s.setRoute r') :=
  h.setRoute hr hs.id (fun q _ => by rw [hs.owner])
    (fun q hq => by rw [hs.epoch]; exact h.epochs q r hr (hs.owner ▸ hq)) ho

/-- A standing record changes its state, as far as an orphan may. -/
theorem moveRoute {r r' : Route} (h : OwnersAgree W s) (hr : r ∈ s.routes) (hs : SameOwnership r r')
    (hst : r.owner = none → r.state.holds = true →
      r'.state.holds = true ∧ (r.state = .rampDown .disconnected → r'.state = .rampDown .disconnected)) :
    OwnersAgree W (s.setRoute r') :=
  h.setRoute_same hr hs ((h.orphans r hr).move hs hst)

/-- A standing record that is not on its way to its release becomes or stays a holder. -/
theorem moveHolder {r r' : Route} (h : OwnersAgree W s) (hr : r ∈ s.routes) (hs : SameOwnership r r')
    (hholds : r'.state.holds = true) (hst : r.state ≠ .rampDown .disconnected) : OwnersAgree W (s.setRoute r') :=
  h.moveRoute hr hs fun _ _ => ⟨hholds, fun hd => absurd hd hst⟩

/-! ### A record erased or made -/

/-- Steps 2 to 4 of R21: the record goes, and its owner owns one route fewer. -/
theorem eraseRoute {r r' : Route} (h : OwnersAgree W s) (hr : r ∈ s.routes) (hs : SameOwnership r r') :
    OwnersAgree W (s.eraseRoute r') := by
  have hsub {x : Route} (hx : x ∈ (s.eraseRoute r').routes) : x ∈ s.routes := (mem_eraseRoute.mp hx).1
  refine ⟨(h.ordered.dropRoute r'.id).of_ids (by simp), fun q hq => ?_, fun q x hx hxo => ?_,
    fun x hx => h.orphans x (hsub hx)⟩
  · obtain ⟨hcount, hquota, hclosed⟩ := h.counts q hq
    have hdrop : s.ownedBy q = (s.eraseRoute r').ownedBy q + if r'.owner = some q then 1 else 0 := by
      have hd := countP_dropRoute h.ordered hr fun x => x.owner == some q
      simpa [State.ownedBy, hs.id, hs.owner] using hd
    rw [eraseRoute_session]
    split
    · next ho =>
      rw [if_pos ho] at hdrop
      exact ⟨by simp only; omega, by simp only; omega, fun hc => by simp only [hclosed hc]⟩
    · next ho =>
      rw [if_neg ho] at hdrop
      exact ⟨by omega, hquota, hclosed⟩
  · have hepoch : ((s.eraseRoute r').session q).epoch = (s.session q).epoch := by
      rw [eraseRoute_session]; split <;> rfl
    rw [hepoch]
    exact h.epochs q x (hsub hx) hxo

/-- R10: a record is made for a port that has room for it, and the port owns one route more. -/
theorem createRoute {p : Port} {r : Route} (h : OwnersSound s) (hopen : (s.session p).isOpen = true)
    (hquota : (s.session p).owned < 24) (hfresh : ∀ x ∈ s.routes, x.id ≠ r.id) (hid : 1 ≤ r.id ∧ r.id ≤ 48)
    (hown : r.owner = some p) (hformer : r.former = none) (hepoch : r.epoch = (s.session p).epoch) :
    OwnersSound (s.createRoute p r) := by
  have hcount (q : Port) : ({ s with routes := insertRoute r s.routes } : State).ownedBy q =
      s.ownedBy q + if p = q then 1 else 0 := by
    unfold State.ownedBy
    rw [(insertRoute_perm r s.routes).countP_eq, List.countP_cons]
    simp [hown]
  have hepochs (q : Port) (x : Route) (hx : x ∈ insertRoute r s.routes) (hxo : x.owner = some q) :
      x.epoch = (s.session q).epoch := by
    rcases mem_insertRoute.mp hx with rfl | hx
    · obtain rfl : p = q := Option.some.inj (hown.symm.trans hxo)
      exact hepoch
    · exact h.epochs q x hx hxo
  have hinsert : OwnersAgree (· ≠ p) { s with routes := insertRoute r s.routes } := by
    refine ⟨h.ordered.insertRoute hfresh hid, fun q hq => ?_, hepochs, fun x hx => ?_⟩
    · rw [hcount, if_neg (Ne.symm hq)]
      exact h.counts q trivial
    · rcases mem_insertRoute.mp hx with rfl | hx
      · exact ⟨by simp [hown, hformer], by simp [hown]⟩
      · exact h.orphans x hx
  have hsession := hinsert.setSession (W' := fun _ => True)
    (x := { s.session p with owned := (s.session p).owned + 1 }) (fun q _ hq => hq)
    (fun _ => ⟨by rw [hcount, if_pos rfl, (h.counts p trivial).count], hquota, by simp [hopen]⟩) (hepochs p)
  obtain ⟨stores, hcreate⟩ := createRoute_eq s p r
  rw [hcreate]
  exact hsession.of_same ⟨rfl, rfl⟩

end OwnersAgree

end Sys2Proof.Machine
end

section
/-! The effects at one route and the close of a session keep the agreement of owners with the Route Table. -/

namespace Sys2Proof.Machine

variable {W : Port → Prop} {s : State} {r r0 : Route}

/-! ### Release, requeue, and the outcome of a ramp-down (R17, R21, R22, R40) -/

theorem releaseHolder_agree (c : ReleaseCause) (tell : Bool) (h : OwnersAgree W s) (hr : r0 ∈ s.routes)
    (hs : SameOwnership r0 r) : OwnersAgree W (releaseHolder c tell r s).st :=
  (h.of_same (t := s.freeSink r.source r.sink) ⟨rfl, rfl⟩).eraseRoute hr hs

theorem releaseWaiter_agree (c : ReleaseCause) (tell : Bool) (h : OwnersAgree W s) (hr : r0 ∈ s.routes)
    (hs : SameOwnership r0 r) : OwnersAgree W (releaseWaiter c tell r s).st :=
  (h.of_same (t := s.leaveClaim r.sink r.id) ⟨rfl, rfl⟩).eraseRoute hr hs

/-- A route that is requeued has an owner (R40), so it may wait. -/
theorem requeue_agree (h : OwnersAgree W s) (hr : r0 ∈ s.routes) (hs : SameOwnership r0 r) (ho : r.owner ≠ none) :
    OwnersAgree W (requeue r s).st := by
  have hsame : SameOwnership r0 { r with state := .waiting none, current := 0, rampCount := 0 } :=
    ⟨hs.id, hs.owner, hs.former, hs.epoch, hs.flags⟩
  have hclaimed : SameOwners s ((s.freeSink r.source r.sink).setClaim r.sink
      (insertClaim (s.freeSink r.source r.sink).priorityOf r.priority r.id
        ((s.freeSink r.source r.sink).claim r.sink))) := ⟨rfl, rfl⟩
  exact (h.of_same hclaimed).setRoute_same hr hsame
    ((h.orphans r0 hr).move_of_owned hsame (by rw [← hs.owner]; exact ho))

theorem carryOut_agree (o : Pending) (h : OwnersAgree W s) (hr : r0 ∈ s.routes) (hs : SameOwnership r0 r) :
    OwnersAgree W (carryOut o r s).st := by
  unfold carryOut
  split
  · exact releaseHolder_agree _ _ h hr hs
  · split
    · next hc =>
      simp only [Bool.and_eq_true, Option.isSome_iff_ne_none] at hc
      obtain ⟨⟨-, howned⟩, -⟩ := hc
      exact requeue_agree h hr hs howned
    · exact releaseHolder_agree _ _ h hr hs

/-! ### Suspension and its end (R13 to R15) -/

theorem suspend_agree (c : SuspendCause) (first : Causes) (hr : r ∈ s.routes) (h : OwnersAgree W s) :
    OwnersAgree W (suspend c first r s).st := by
  unfold suspend
  split
  · exact h
  · next hst => exact h.moveHolder hr ⟨rfl, rfl, rfl, rfl, rfl⟩ rfl (by simp [hst])
  · next hst => exact h.moveHolder hr ⟨rfl, rfl, rfl, rfl, rfl⟩ rfl (by simp [hst])
  · next hst => exact h.moveHolder hr ⟨rfl, rfl, rfl, rfl, rfl⟩ rfl (by simp [hst])
  · next hst =>
    split
    · exact h
    · exact h.moveHolder hr ⟨rfl, rfl, rfl, rfl, rfl⟩ rfl (by simp [hst])
  · exact carryOut_agree _ h hr ⟨rfl, rfl, rfl, rfl, rfl⟩

theorem resume_agree (c : SuspendCause) (hr : r ∈ s.routes) (h : OwnersAgree W s) :
    OwnersAgree W (resume c r s).st := by
  unfold resume
  split
  · next hst =>
    split
    · exact h.moveHolder hr ⟨rfl, rfl, rfl, rfl, rfl⟩ rfl (by simp [hst])
    · exact h.moveHolder hr ⟨rfl, rfl, rfl, rfl, rfl⟩ rfl (by simp [hst])
  · exact h

/-! ### The step of a route at a boundary (R11, R52, R53) -/

theorem advance_sameOwnership (aim : Nat) (r : Route) :
    SameOwnership r (advance aim r) ∧ (advance aim r).state = r.state := by
  unfold advance
  split
  · exact ⟨⟨rfl, rfl, rfl, rfl, rfl⟩, rfl⟩
  · split <;> exact ⟨⟨rfl, rfl, rfl, rfl, rfl⟩, rfl⟩

theorem moveToward_sameOwnership (aim : Nat) (r : Route) :
    SameOwnership r (moveToward aim r) ∧ (moveToward aim r).state = r.state := by
  unfold moveToward
  split
  · exact ⟨⟨rfl, rfl, rfl, rfl, rfl⟩, rfl⟩
  · exact advance_sameOwnership aim r

/-- The step of a route changes neither its ownership nor whether it holds its sink, and no ramp-down's outcome. -/
theorem stepRoute_keeps (r : Route) :
    SameOwnership r (stepRoute r).1 ∧ (stepRoute r).1.state.holds = r.state.holds ∧
      ∀ o, r.state = .rampDown o → (stepRoute r).1.state = .rampDown o := by
  cases hst : r.state with
  | waiting left | suspended cs => simp [stepRoute, hst, SameOwnership.refl, RouteState.holds]
  | armed =>
    simp only [stepRoute, hst]
    split <;> exact ⟨⟨rfl, rfl, rfl, rfl, rfl⟩, rfl, by simp⟩
  | rampUp =>
    obtain ⟨hs, hm⟩ := moveToward_sameOwnership r.target r
    simp only [stepRoute, hst]
    split
    · exact ⟨⟨hs.id, hs.owner, hs.former, hs.epoch, hs.flags⟩, rfl, by simp⟩
    · exact ⟨hs, by rw [hm, hst], by simp⟩
  | live =>
    obtain ⟨hs, hm⟩ := moveToward_sameOwnership r.target r
    simp only [stepRoute, hst]
    split <;> exact ⟨hs, by rw [hm, hst], by simp⟩
  | rampDown o =>
    obtain ⟨hs, hm⟩ := advance_sameOwnership 0 r
    simp only [stepRoute, hst]
    split
    · simp [hst, SameOwnership.refl]
    · split <;> exact ⟨hs, by rw [hm, hst], fun o' ho => by rw [hm, hst, ho]⟩

theorem boundaryAt_agree (hr : r ∈ s.routes) (h : OwnersAgree W s) : OwnersAgree W (boundaryAt r s).st := by
  obtain ⟨hs, hholds, hdown⟩ := stepRoute_keeps r
  have hstepped : OwnersAgree W (s.setRoute (stepRoute r).1) :=
    h.moveRoute hr hs fun _ hh => ⟨hholds.trans hh, hdown _⟩
  unfold boundaryAt
  dsimp only
  split
  · exact hstepped
  · exact hstepped
  · exact hstepped
  · exact hstepped
  · split
    · exact carryOut_agree _ hstepped (mem_setRoute_self hr hs.id) (.refl _)
    · exact hstepped

/-! ### A preempted holder and a granted waiter (R34, R38) -/

theorem preemptHolder_agree (hr : r ∈ s.routes) (h : OwnersAgree W s) : OwnersAgree W (preemptHolder r s).st := by
  unfold preemptHolder
  split
  · next hst => exact h.moveHolder hr ⟨rfl, rfl, rfl, rfl, rfl⟩ rfl (by simp [hst])
  · next hst => exact h.moveHolder hr ⟨rfl, rfl, rfl, rfl, rfl⟩ rfl (by simp [hst])
  · exact carryOut_agree _ h hr (.refl r)
  · exact carryOut_agree _ h hr (.refl r)
  · exact h
  · exact h

/-- A waiting route has an owner, so its grant makes no orphan a holder. -/
theorem grantHead_agree (hr : r ∈ s.routes) (hw : r.state.holds = false) (h : OwnersAgree W s) :
    OwnersAgree W (grantHead r s).st := by
  have hs : SameOwnership r { r with state := s.holderState r.domain r.source, current := 0, rampCount := 0 } :=
    ⟨rfl, rfl, rfl, rfl, rfl⟩
  have hsound := h.orphans r hr
  have hset := (h.of_same (t := s.leaveClaim r.sink r.id) ⟨rfl, rfl⟩).setRoute_same hr hs
    (hsound.move_of_owned hs (hsound.owned_of_waiting hw))
  exact hset.of_same ⟨rfl, rfl⟩

/-! ### The close of a session (R126 to R128) -/

/-- A holder of a closing port is released or becomes an orphan of that port (Table 7.2). -/
theorem closeHolder_cases (s : State) (hholds : r.state.holds = true) :
    closeHolder r s = releaseHolder .disconnected true r s ∨
    ∃ r', closeHolder r s = { st := s.setRoute r', evs := [] } ∧ r'.id = r.id ∧ r'.owner = none ∧ r'.former = r.owner ∧
      r'.state.holds = true ∧ r'.flags.requeue = false ∧ (r'.flags.persist = true ∨ r'.state = .rampDown .disconnected) := by
  unfold closeHolder
  split
  · next hp => exact .inr ⟨_, rfl, rfl, rfl, rfl, hholds, rfl, .inl hp⟩
  · cases hst : r.state with
    | waiting left => simp [hst, RouteState.holds] at hholds
    | armed | suspended cs => exact .inl rfl
    | rampUp | live | rampDown o => exact .inr ⟨_, rfl, rfl, rfl, rfl, rfl, rfl, .inr rfl⟩

/-- The treatment of one holder takes it from the closing port: no record with its id and that owner is left. -/
theorem closeHolder_agree {p : Port} (hr : r ∈ s.routes) (hown : r.owner = some p) (hholds : r.state.holds = true)
    (h : OwnersAgree (· ≠ p) s) :
    OwnersAgree (· ≠ p) (closeHolder r s).st ∧
      ∀ x ∈ (closeHolder r s).st.routes, (x.id = r.id ∧ x.owner = none) ∨ (x ∈ s.routes ∧ x.id ≠ r.id) := by
  rcases closeHolder_cases s hholds with he | ⟨r', he, hid, ho, hformer, hholds', hrequeue, hends⟩
  · rw [he]
    exact ⟨releaseHolder_agree _ _ h hr (.refl r), fun x hx =>
      .inr ((mem_eraseRoute (s := s.freeSink r.source r.sink)).mp hx)⟩
  · rw [he]
    have hsound : OrphanSound r' := ⟨by simp [ho, hformer, hown], fun _ => ⟨hholds', hrequeue, hends⟩⟩
    refine ⟨h.setRoute hr hid (fun q hq => ?_) (by simp [ho]) hsound, fun x hx => ?_⟩
    · simp [ho, hown, Ne.symm hq]
    · rcases mem_setRoute hx with rfl | hx
      · exact .inl ⟨hid, ho⟩
      · exact .inr (hid ▸ hx)

/-- Step 3 of R126 at work on the waiters `ids` of port `p`: what stands is of the table of `s`, and the port's routes that
stand are holders or still to come. -/
structure WaitersLeft (s : State) (p : Port) (ids : List Nat) (u : State) : Prop where
  agree  : OwnersAgree (· ≠ p) u
  subset : u.routes ⊆ s.routes
  owned  : ∀ x ∈ u.routes, x.owner = some p → x.state.holds = true ∨ x.id ∈ ids

/-- Step 4 of R126 at work on the holders `ids` of port `p`: the port owns these and no others. -/
structure HoldersLeft (p : Port) (ids : List Nat) (u : State) : Prop where
  agree : OwnersAgree (· ≠ p) u
  nodup : ids.Nodup
  owned : ∀ x ∈ u.routes, x.owner = some p ↔ x.id ∈ ids
  holds : ∀ x ∈ u.routes, x.owner = some p → x.state.holds = true

theorem WaitersLeft.release {p : Port} {ids : List Nat} {u : State} (h : WaitersLeft s p (r.id :: ids) u)
    (hr : r ∈ u.routes) (c : ReleaseCause) (tell : Bool) : WaitersLeft s p ids (releaseWaiter c tell r u).st := by
  have hmem {x : Route} (hx : x ∈ (releaseWaiter c tell r u).st.routes) : x ∈ u.routes ∧ x.id ≠ r.id :=
    (mem_eraseRoute (s := u.leaveClaim r.sink r.id)).mp hx
  refine ⟨releaseWaiter_agree c tell h.agree hr (.refl r), fun x hx => h.subset (hmem hx).1, fun x hx ho => ?_⟩
  obtain ⟨hxu, hne⟩ := hmem hx
  exact (h.owned x hxu ho).imp_right fun hids => (List.mem_cons.mp hids).resolve_left hne

theorem WaitersLeft.pass {p : Port} {id : Nat} {ids : List Nat} {u : State} (h : WaitersLeft s p (id :: ids) u)
    (hn : u.route? id = none) : WaitersLeft s p ids u :=
  ⟨h.agree, h.subset, fun x hx ho => (h.owned x hx ho).imp_right fun hids =>
    (List.mem_cons.mp hids).resolve_left (State.route?_eq_none.mp hn x hx)⟩

theorem HoldersLeft.close {p : Port} {ids : List Nat} {u : State} (h : HoldersLeft p (r.id :: ids) u)
    (hr : r ∈ u.routes) : HoldersLeft p ids (closeHolder r u).st := by
  obtain ⟨hnot, hnodup⟩ := List.nodup_cons.mp h.nodup
  have hown : r.owner = some p := (h.owned r hr).mpr (List.mem_cons_self ..)
  obtain ⟨hagree, hmem⟩ := closeHolder_agree hr hown (h.holds r hr hown) h.agree
  refine ⟨hagree, hnodup, fun x hx => ?_, fun x hx ho => ?_⟩
  · rcases hmem x hx with ⟨hid, ho⟩ | ⟨hxu, hne⟩
    · simp [ho, hid, hnot]
    · rw [h.owned x hxu, List.mem_cons, or_iff_right hne]
  · rcases hmem x hx with ⟨-, hnone⟩ | ⟨hxu, -⟩
    · simp [hnone] at ho
    · exact h.holds x hxu ho

theorem HoldersLeft.pass {p : Port} {id : Nat} {ids : List Nat} {u : State} (h : HoldersLeft p (id :: ids) u)
    (hn : u.route? id = none) : HoldersLeft p ids u :=
  ⟨h.agree, (List.nodup_cons.mp h.nodup).2, fun x hx => by
    rw [h.owned x hx, List.mem_cons, or_iff_right (State.route?_eq_none.mp hn x hx)], h.holds⟩

/-- The routes that steps 3 and 4 of R126 take, in turn: the waiters are gone before the holders are treated. -/
theorem HoldersLeft.of_waitersLeft {p : Port} {u : State} (hs : RoutesOrdered s) (h : WaitersLeft s p [] u) :
    HoldersLeft p (s.idsWhere fun r => r.owner == some p && r.state.holds) u := by
  have hholds (x : Route) (hx : x ∈ u.routes) (ho : x.owner = some p) : x.state.holds = true :=
    (h.owned x hx ho).resolve_right (by simp)
  refine ⟨h.agree, nodup_idsWhere hs _, fun x hx => ?_, hholds⟩
  rw [id_mem_idsWhere hs (h.subset hx)]
  simp only [Bool.and_eq_true, beq_iff_eq]
  exact ⟨fun ho => ⟨ho, hholds x hx ho⟩, And.left⟩

/-- Steps 1 and 2 of R126 reach the session of the closing port alone, whose count is judged at the end of the close. -/
theorem shutSession_waitersLeft (h : OwnersSound s) (p : Port) :
    WaitersLeft s p (s.idsWhere fun r => r.owner == some p && !r.state.holds) (s.shutSession p) := by
  refine ⟨?_, fun x hx => hx, fun x hx ho => ?_⟩
  · exact (h.setSession (W' := (· ≠ p)) (x := { s.session p with isOpen := false }) (fun _ _ _ => trivial)
      (fun hp => absurd rfl hp) (h.epochs p)).of_same ⟨rfl, rfl⟩
  · rw [id_mem_idsWhere h.ordered hx]
    cases hst : x.state.holds <;> simp [ho]

/-- The close of a session leaves its port without routes, and every count in agreement (R126). -/
theorem close_agree (h : OwnersSound s) (p : Port) : OwnersSound (s.close p).eff.st := by
  have hwaiters := forRoutes_induction (P := WaitersLeft s p) (f := releaseWaiter .disconnected true)
    (fun _ _ _ hn hu => hu.pass hn) (fun _ _ _ hr hu => hu.release hr _ _) _ _ (shutSession_waitersLeft h p)
  have hholders := forRoutes_induction (P := HoldersLeft p) (f := closeHolder)
    (fun _ _ _ hn hu => hu.pass hn) (fun _ _ _ hr hu => hu.close hr) _ _ (.of_waitersLeft h.ordered hwaiters)
  have hnone := fun x hx => mt (hholders.owned x hx).mp (by simp)
  exact hholders.agree.setSession (fun _ _ hq => hq) (fun _ => ⟨(ownedBy_eq_zero.mpr hnone).symm, by simp, fun _ => rfl⟩)
    (hholders.agree.epochs p)

end Sys2Proof.Machine
end

section
/-! What a port takes, and the own meaning of each host command, keep the agreement of owners with the Route Table. -/

namespace Sys2Proof.Machine

variable {s : State}

/-! ### The frame a port takes, and the reset of a port (R130, R150 to R153) -/

theorem portResetEffects_agree (p : Port) (h : OwnersSound s) : OwnersSound (s.portResetEffects p) := by
  unfold State.portResetEffects
  dsimp only
  split
  · exact ((close_agree h p).post _).of_same ⟨rfl, rfl⟩
  · exact h.of_same ⟨rfl, rfl⟩

theorem settle_agree (p : Port) (h : OwnersSound s) : OwnersSound (s.settle p) := by
  unfold State.settle
  split
  · exact portResetEffects_agree p h
  · exact h

/-- A taken frame keeps the agreement when its own meaning does, on a session that is OPEN where the command needs one. -/
theorem takeCommand_agree {p : Port} {seq : Byte} {params : List Byte} {lengthOk needsSession : Bool} {own : State → Reply}
    (hown : ∀ u, OwnersSound u → (needsSession = true → (u.session p).isOpen = true) → OwnersSound (own u).st)
    (h : OwnersSound s) : OwnersSound (takeCommand p seq params lengthOk needsSession own s) := by
  have hsettled := settle_agree p h
  have hreply : OwnersSound
      (if !lengthOk then refuse .badLength (s.settle p)
        else if needsSession && !((s.settle p).session p).isOpen then refuse .noSession (s.settle p)
        else own (s.settle p)).st := by
    split
    · exact hsettled
    · split
      · exact hsettled
      · next hopen => exact hown _ hsettled fun hn => by simpa [hn] using hopen
  have hanswered (r : Reply) (hr : OwnersSound r.st) :
      OwnersSound ((r.st.post r.evs).answer p { seq := seq, result := r.result, payload := r.payload }
        (4 + params.length)) :=
    (hr.post r.evs).of_same ⟨rfl, rfl⟩
  unfold takeCommand
  split
  · dsimp only
    split
    · exact hsettled.of_same ⟨rfl, rfl⟩
    all_goals exact hanswered _ hreply
  · exact h

/-- A taken frame whose meaning reaches neither the table nor the sessions. -/
theorem takeCommand_agree_of_same {p : Port} {seq : Byte} {params : List Byte} {lengthOk needsSession : Bool}
    {own : State → Reply} (hown : ∀ u, SameOwners u (own u).st) (h : OwnersSound s) :
    OwnersSound (takeCommand p seq params lengthOk needsSession own s) :=
  takeCommand_agree (fun u hu _ => hu.of_same (hown u)) h

theorem execFrameError_agree (p : Port) (bytes : List Byte) (h : OwnersSound s) :
    ∃ t, execFrameError p bytes s = .next t ∧ OwnersSound t := by
  refine ⟨_, rfl, ?_⟩
  split
  · dsimp only
    split <;> exact (settle_agree p h).of_same ⟨rfl, rfl⟩
  · exact h

theorem execPortReset_agree (p : Port) (h : OwnersSound s) : ∃ t, execPortReset p s = .next t ∧ OwnersSound t := by
  refine ⟨_, rfl, ?_⟩
  dsimp only
  split
  · exact h.of_same ⟨rfl, rfl⟩
  all_goals exact portResetEffects_agree p (h.of_same ⟨rfl, rfl⟩)

theorem execCommandCompletes_agree (p : Port) (h : OwnersSound s) :
    ∃ t, execCommandCompletes p s = .next t ∧ OwnersSound t := by
  refine ⟨_, rfl, ?_⟩
  split
  · split
    · exact portResetEffects_agree p h
    · exact h.of_same ⟨rfl, rfl⟩
  all_goals exact h

/-! ### Sessions (chapter 7) -/

/-- A closed session owns no route, so its new epoch is no route's yet (R124). -/
theorem openSession_agree (p : Port) (h : OwnersSound s) : OwnersSound (openSession p s).st := by
  unfold openSession
  dsimp only
  split
  · exact h
  · next hclosed =>
    have hcount := h.counts p trivial
    have hzero := hcount.closed (by simpa using hclosed)
    have hnone := ownedBy_eq_zero.mp (hcount.count.symm.trans hzero)
    have hopened := h.setSession (W' := fun _ => True)
      (x := { s.session p with isOpen := true, epoch := (s.session p).epoch + 1 }) (fun _ _ _ => trivial)
      (fun _ => ⟨hcount.count, hcount.quota, by simp⟩) fun r hr ho => absurd ho (hnone r hr)
    exact hopened.of_same ⟨rfl, rfl⟩

theorem withRoute_cases (id : Nat) (s : State) (k : Route → Reply) :
    (∃ res, withRoute id s k = refuse res s) ∨ ∃ r, s.route? id = some r ∧ withRoute id s k = k r := by
  unfold withRoute
  split
  · exact .inl ⟨_, rfl⟩
  · split
    · exact .inl ⟨_, rfl⟩
    · next r hr => exact .inr ⟨r, hr, rfl⟩

/-- A command that names a route keeps the agreement when its meaning at a standing route does. -/
theorem withRoute_agree {id : Nat} {k : Route → Reply} (h : OwnersSound s)
    (hk : ∀ r ∈ s.routes, OwnersSound (k r).st) : OwnersSound (withRoute id s k).st := by
  rcases withRoute_cases id s k with ⟨res, he⟩ | ⟨r, hr, he⟩
  · rw [he]; exact h
  · rw [he]; exact hk r (State.route?_some hr).2

/-- The record of an orphan after port `p` has adopted it in a session of this epoch (R133). -/
def Route.adopted (r : Route) (p : Port) (epoch : Byte) : Route :=
  { r with owner := some p, former := none, epoch := epoch }

/-- An orphan that is adopted leaves every other port's count, and raises the adopter's by one (R133). -/
theorem adopt_agree {p : Port} {id : Nat} (h : OwnersSound s) (hopen : (s.session p).isOpen = true) :
    OwnersSound (adopt p id s).st := by
  refine withRoute_agree h fun r hr => ?_
  dsimp only
  split
  · exact h
  · next horphan =>
    have hnone : r.owner = none := by simpa using horphan
    split
    · exact h
    · next hquota =>
      have hset : OwnersAgree (· ≠ p) (s.setRoute (r.adopted p (s.session p).epoch)) :=
        (h.mono fun _ _ => trivial).setRoute hr rfl (fun q hq => by simp [Route.adopted, hnone, Ne.symm hq])
          (fun q hq => by obtain rfl : p = q := Option.some.inj hq; rfl)
          ⟨by simp [Route.adopted], by simp [Route.adopted]⟩
      have hcount : (s.setRoute (r.adopted p (s.session p).epoch)).ownedBy p = s.ownedBy p + 1 := by
        unfold State.ownedBy
        rw [countP_setRoute (r' := r.adopted p _) h.ordered hr rfl, countP_dropRoute h.ordered hr]
        simp [Route.adopted, hnone]
      exact hset.setSession (W' := fun _ => True) (fun _ _ hq => hq)
        (fun _ => ⟨by rw [hcount, (h.counts p trivial).count], Nat.lt_of_not_le hquota, by simp [hopen]⟩)
        (hset.epochs p)

/-! ### CONNECT (R5 to R10, R29 to R38) -/

/-- A CONNECT is refused, or passes its checks and is placed by Table 2.2 with the record that R10 makes. -/
theorem connect_cases (p : Port) (a : ConnectBytes) (s : State) :
    (∃ res, connect p a s = refuse res s) ∨
    ∃ e t d id st, ConnectPasses s p a e t d id ∧
      connect p a s =
        placeRoute p (placement s t a.priority.toNat (flagPreempt a.flags) (flagNowait a.flags))
          (connectRecord s p a e t d id st) s := by
  unfold connect
  split
  · exact .inl ⟨_, rfl⟩
  next hvalues =>
  split
  · exact .inl ⟨_, rfl⟩
  next e t hendpoints =>
  split
  · exact .inl ⟨_, rfl⟩
  next hlanes =>
  split
  · exact .inl ⟨_, rfl⟩
  next hconfigured =>
  split
  · exact .inl ⟨_, rfl⟩
  next d hdomain =>
  dsimp only
  split
  · exact .inl ⟨_, rfl⟩
  next hquota =>
  split
  · exact .inl ⟨_, rfl⟩
  next hroom =>
  split
  · exact .inl ⟨_, rfl⟩
  next id hfree =>
  exact .inr ⟨e, t, d, id, _,
    { values := by simpa using hvalues, endpoints := hendpoints, lanes := by simpa using hlanes,
      configured := by simpa using hconfigured, domain := hdomain, quota := Nat.lt_of_not_le hquota,
      room := Nat.lt_of_not_le hroom, freeId := hfree }, rfl⟩

/-- A holder that a CONNECT preempts stands in the table (R37). -/
theorem mem_of_placement_preempt {t : Sink} {prio : Nat} {preempt nowait : Bool} {h : Route}
    (hp : placement s t prio preempt nowait = .preempt h) : h ∈ s.routes := by
  have hpre : preemptable s t prio = some h := by
    unfold placement at hp
    split at hp
    · cases hp
    split at hp
    · next hx =>
      cases hp
      exact (Option.ite_none_right_eq_some.mp hx).2
    · repeat' split at hp
      all_goals cases hp
  have hholder : s.holderOf t = some h := by
    unfold preemptable at hpre
    split at hpre
    · cases hpre
    · next hx => exact (Option.ite_none_right_eq_some.mp hpre).2 ▸ hx
  obtain ⟨id, -, hid⟩ := Option.bind_eq_some_iff.mp hholder
  exact (State.route?_some hid).2

theorem placeRoute_agree {p : Port} {pl : Placement} {r : Route} (h : OwnersSound s)
    (hmade : OwnersSound (s.createRoute p r)) (hpl : ∀ x, pl = .preempt x → x ∈ s.routes) :
    OwnersSound (placeRoute p pl r s).st := by
  cases pl with
  | holder => exact hmade.of_same ⟨rfl, rfl⟩
  | preempt x =>
    refine preemptHolder_agree ?_ (hmade.of_same ⟨rfl, rfl⟩)
    rw [State.setClaim_routes, createRoute_routes, mem_insertRoute]
    exact .inr (hpl x rfl)
  | wait => exact hmade.of_same ⟨rfl, rfl⟩
  | sinkBusy => exact h
  | queueFull => exact h

theorem connect_agree {p : Port} {a : ConnectBytes} (h : OwnersSound s) (hopen : (s.session p).isOpen = true) :
    OwnersSound (connect p a s).st := by
  rcases connect_cases p a s with ⟨res, he⟩ | ⟨e, t, d, id, st, hpass, he⟩
  · rw [he]; exact h
  · rw [he]
    obtain ⟨hlow, hhigh, hfresh, -⟩ := lowestFreeId_spec hpass.freeId
    exact placeRoute_agree h (h.createRoute hopen hpass.quota hfresh ⟨hlow, hhigh⟩ rfl rfl rfl)
      fun x => mem_of_placement_preempt

/-! ### DISCONNECT, SET_GAIN and SET_LANE (R19, R54, R98) -/

theorem disconnect_agree {p : Port} {id : Nat} (h : OwnersSound s) : OwnersSound (disconnect p id s).st := by
  refine withRoute_agree h fun r hr => ?_
  dsimp only
  split
  · exact h
  · split
    · exact releaseWaiter_agree .disconnected false h hr (.refl r)
    · exact releaseHolder_agree .disconnected false h hr (.refl r)
    · exact releaseHolder_agree .disconnected false h hr (.refl r)
    · exact h.moveRoute hr ⟨rfl, rfl, rfl, rfl, rfl⟩ fun _ _ => ⟨rfl, fun _ => rfl⟩
    · exact h.moveRoute hr ⟨rfl, rfl, rfl, rfl, rfl⟩ fun _ _ => ⟨rfl, fun _ => rfl⟩
    · exact h.moveRoute hr ⟨rfl, rfl, rfl, rfl, rfl⟩ fun _ _ => ⟨rfl, fun _ => rfl⟩
    · exact h

theorem setGain_agree {p : Port} {id target : Nat} (h : OwnersSound s) : OwnersSound (setGain p id target s).st := by
  unfold setGain
  split
  · exact h
  · refine withRoute_agree h fun r hr => ?_
    have hset : OwnersSound (s.setRoute { r with target := target }) :=
      h.moveRoute hr ⟨rfl, rfl, rfl, rfl, rfl⟩ fun _ hh => ⟨hh, fun hd => hd⟩
    split
    · exact h
    · split
      · exact h
      all_goals exact hset

theorem reportSources_sameOwners (s : State) (i : Idx) (before after : LaneState) :
    SameOwners s (s.reportSources i before after) := by
  unfold State.reportSources
  split
  · exact ⟨rfl, rfl⟩
  · split <;> exact ⟨rfl, rfl⟩

theorem moveInLanes_sameOwners (s : State) (after : Quad Lane) : SameOwners s (s.moveInLanes after) :=
  have hset : SameOwners s { s with inLanes := after } := ⟨rfl, rfl⟩
  (((hset.trans (reportSources_sameOwners ..)).trans (reportSources_sameOwners ..)).trans
    (reportSources_sameOwners ..)).trans (reportSources_sameOwners ..)

theorem countDraw_sameOwners (s : State) (before after : Lane) : SameOwners s (s.countDraw before after) := by
  unfold State.countDraw
  split <;> exact ⟨rfl, rfl⟩

theorem changeLane_sameOwners (s : State) (l : LaneId) (after : Lane) : SameOwners s (s.changeLane l after) := by
  have hset : SameOwners s (s.setLane l after) := ⟨State.setLane_routes .., State.setLane_sessions ..⟩
  cases l with
  | input i => exact hset.trans (reportSources_sameOwners ..)
  | output i =>
    exact hset.trans (countDraw_sameOwners ..)

theorem releaseLane_agree (l : LaneId) (h : OwnersSound s) : OwnersSound (s.releaseLane l).st :=
  forRoutes_keeps_of_mem (fun r _ hr hu => releaseHolder_agree _ _ hu hr (.refl r)) _ _
    (forRoutes_keeps_of_mem (fun r _ hr hu => releaseWaiter_agree _ _ hu hr (.refl r)) _ _ h)

theorem setLane_agree {p : Port} {lb eb db : Byte} (h : OwnersSound s) : OwnersSound (setLane p lb eb db s).st := by
  unfold setLane
  split
  · next l enable d _ _ _ =>
    dsimp only
    split
    · exact h
    · split
      · exact h
      · refine OwnersAgree.of_same ?_ (changeLane_sameOwners ..)
        split
        · exact releaseLane_agree l h
        · exact h
  · exact h

/-! ### Host commands that reach neither the table nor the sessions -/

theorem describeEndpoint_sameOwners (b : Byte) (s : State) : SameOwners s (describeEndpoint b s).st := by
  unfold describeEndpoint; split <;> exact .refl s

theorem setTag_sameOwners (p : Port) (b : Byte) (chars : List Byte) (s : State) :
    SameOwners s (setTag p b chars s).st := by
  unfold setTag
  dsimp only
  split
  · exact .refl s
  · next e _ =>
    split
    · exact .refl s
    · cases e <;> exact ⟨rfl, rfl⟩

theorem findTag_sameOwners (chars : List Byte) (s : State) : SameOwners s (findTag chars s).st := by
  unfold findTag
  dsimp only
  split
  · exact .refl s
  · split <;> exact .refl s

theorem withRate_sameOwners (s : State) (d : Domain) (code : Nat) : SameOwners s (s.withRate d code) := by
  cases d with
  | fa => exact ⟨rfl, rfl⟩
  | fb => exact ⟨rfl, rfl⟩
  | fx => unfold State.withRate; dsimp only; split <;> exact ⟨rfl, rfl⟩

theorem setRate_sameOwners (db cb fb : Byte) (s : State) : SameOwners s (setRate db cb fb s).st := by
  unfold setRate
  split
  · exact .refl s
  · split
    · exact .refl s
    · split
      · exact .refl s
      · next d _ _ _ =>
        refine (withRate_sameOwners s d cb.toNat).trans ?_
        dsimp only
        split <;> exact ⟨rfl, rfl⟩

theorem queryDomain_sameOwners (db : Byte) (s : State) : SameOwners s (queryDomain db s).st := by
  unfold queryDomain; split <;> exact .refl s

theorem queryRoute_sameOwners (id : Nat) (s : State) : SameOwners s (queryRoute id s).st := by
  rcases withRoute_cases id s fun r => accept s [] (s.routeReport r) with ⟨_, he⟩ | ⟨_, -, he⟩ <;>
    (unfold queryRoute; rw [he]; exact .refl s)

theorem listRoutes_sameOwners (kind value : Byte) (s : State) : SameOwners s (listRoutes kind value s).st := by
  unfold listRoutes; split <;> exact .refl s

theorem withSink_cases (b : Byte) (s : State) (k : Sink → Reply) :
    (∃ res, withSink b s k = refuse res s) ∨ ∃ t, withSink b s k = k t := by
  unfold withSink
  split
  · exact .inl ⟨_, rfl⟩
  · exact .inl ⟨_, rfl⟩
  · exact .inr ⟨_, rfl⟩

theorem querySink_sameOwners (b : Byte) (s : State) : SameOwners s (querySink b s).st := by
  rcases withSink_cases b s fun t => accept s [] (s.sinkReport t) with ⟨_, he⟩ | ⟨_, he⟩ <;>
    (unfold querySink; rw [he]; exact .refl s)

theorem withChannel_cases (b : Byte) (s : State) (k : Idx → Idx → Reply) :
    (∃ res, withChannel b s k = refuse res s) ∨ ∃ l c, withChannel b s k = k l c := by
  unfold withChannel
  rcases withSink_cases b s _ with ⟨res, he⟩ | ⟨t, he⟩
  · exact .inl ⟨res, he⟩
  · rw [he]
    cases t with
    | storeIn n => exact .inl ⟨_, rfl⟩
    | output l c => exact .inr ⟨l, c, rfl⟩

theorem setTrim_sameOwners (p : Port) (b : Byte) (trim : Nat) (s : State) : SameOwners s (setTrim p b trim s).st := by
  unfold setTrim
  split
  · exact .refl s
  · rcases withChannel_cases b s _ with ⟨_, he⟩ | ⟨_, _, he⟩
    · rw [he]; exact .refl s
    · rw [he]; exact ⟨rfl, rfl⟩

theorem resetMeter_sameOwners (b : Byte) (s : State) : SameOwners s (resetMeter b s).st := by
  unfold resetMeter
  rcases withChannel_cases b s _ with ⟨_, he⟩ | ⟨_, _, he⟩
  · rw [he]; exact .refl s
  · rw [he]; exact ⟨rfl, rfl⟩

theorem configureStore_sameOwners (p : Port) (nb cap pol : Byte) (low high : Nat) (s : State) :
    SameOwners s (configureStore p nb cap pol low high s).st := by
  unfold configureStore
  split
  · split
    · exact .refl s
    split
    · exact .refl s
    split
    · exact .refl s
    split
    · exact .refl s
    · exact ⟨rfl, rfl⟩
  · exact .refl s

theorem storeWrite_sameOwners (nb count : Byte) (xs : List Sample) (s : State) :
    SameOwners s (storeWrite nb count xs s).st := by
  unfold storeWrite
  split
  · exact .refl s
  split
  · exact .refl s
  dsimp only
  split
  · exact .refl s
  split
  · exact .refl s
  · exact ⟨rfl, rfl⟩

theorem storeRead_sameOwners (nb count : Byte) (s : State) : SameOwners s (storeRead nb count s).st := by
  unfold storeRead
  split
  · exact .refl s
  split
  · exact .refl s
  dsimp only
  split
  · exact .refl s
  split
  · exact .refl s
  · exact ⟨rfl, rfl⟩

theorem flushStore_sameOwners (nb : Byte) (s : State) : SameOwners s (flushStore nb s).st := by
  unfold flushStore
  split
  · exact .refl s
  dsimp only
  split
  · exact .refl s
  · exact ⟨rfl, rfl⟩

theorem queryStore_sameOwners (nb : Byte) (s : State) : SameOwners s (queryStore nb s).st := by
  unfold queryStore; split <;> exact .refl s

theorem readEvents_sameOwners (p : Port) (n : Nat) (s : State) : SameOwners s (readEvents p n s).st := by
  unfold readEvents; split <;> exact .refl s

theorem ackEvents_sameOwners (p : Port) (n : Nat) (s : State) : SameOwners s (ackEvents p n s).st := by
  unfold ackEvents; dsimp only; split <;> exact ⟨rfl, rfl⟩

end Sys2Proof.Machine
end

section
/-! Every command keeps the agreement of owners with the Route Table, a GRANT because the claim queues are sound, and so does
a period of XREF. -/

namespace Sys2Proof.Machine

variable {s : State}

/-! ### The other transactions of a port (R146 to R153) -/

theorem execFetch_sameOwners (p : Port) (n : Nat) (s : State) : ∃ t, execFetch p n s = .next t ∧ SameOwners s t := by
  refine ⟨_, rfl, ?_⟩
  split <;> exact ⟨rfl, rfl⟩

theorem execFrameDiscarded_sameOwners (p : Port) (bytes : List Byte) (s : State) :
    ∃ t, execFrameDiscarded p bytes s = .next t ∧ SameOwners s t := by
  refine ⟨_, rfl, ?_⟩
  split
  · split <;> exact ⟨rfl, rfl⟩
  · exact .refl s

theorem execPortResetRelease_sameOwners (p : Port) (s : State) :
    ∃ t, execPortResetRelease p s = .next t ∧ SameOwners s t := by
  refine ⟨_, rfl, ?_⟩
  split <;> exact ⟨rfl, rfl⟩

theorem execUnknownCommand_agree (p : Port) (code seq : Byte) (params : List Byte) (h : OwnersSound s) :
    ∃ t, execUnknownCommand p code seq params s = .next t ∧ OwnersSound t := by
  refine ⟨_, rfl, ?_⟩
  split
  · exact takeCommand_agree_of_same (fun u => .refl u) h
  · exact h

/-! ### Clock domains (chapter 4) -/

theorem lockedState_sameOwners {d : Domain} {t : State} (h : lockedState s d = some t) : SameOwners s t := by
  cases d with
  | fa | fb | fx =>
    simp only [lockedState] at h
    split at h <;> cases h
    exact ⟨rfl, rfl⟩

theorem execLockComplete_sameOwners (d : Domain) (s : State) :
    ∃ t, execLockComplete d s = .next t ∧ SameOwners s t := by
  refine ⟨_, rfl, ?_⟩
  split
  · exact .refl s
  · split
    · exact .refl s
    · next s1 hs1 =>
      have hlocked := lockedState_sameOwners hs1
      refine SameOwners.post ?_ _
      exact ⟨hlocked.routes, hlocked.sessions⟩

theorem fxClockFound_sameOwners (r : Rate) (s : State) : SameOwners s (fxClockFound r s) := by
  unfold fxClockFound
  split
  · refine SameOwners.post ?_ _
    exact ⟨rfl, rfl⟩
  · next m _ _ =>
    split
    · refine SameOwners.post ?_ _
      exact ⟨rfl, rfl⟩
    · refine SameOwners.post ?_ _
      exact ⟨rfl, rfl⟩
  all_goals exact .refl s

theorem execClockFound_sameOwners (r : Rate) (s : State) :
    ∃ t, execClockFound r s = .next t ∧ SameOwners s t := by
  refine ⟨_, rfl, ?_⟩
  split
  · exact .refl s
  · split
    · exact SameOwners.trans (t := { s with monitor := { clock := some r, reportDue := false } }) ⟨rfl, rfl⟩
        (fxClockFound_sameOwners ..)
    · split
      · exact fxClockFound_sameOwners r s
      · exact .refl s

theorem execClockLost_sameOwners (s : State) : ∃ t, execClockLost s = .next t ∧ SameOwners s t := by
  refine ⟨_, rfl, ?_⟩
  split
  · exact .refl s
  · dsimp only
    split
    · refine SameOwners.post ?_ _
      exact ⟨rfl, rfl⟩
    · refine SameOwners.post ?_ _
      exact ⟨rfl, rfl⟩
    all_goals exact ⟨rfl, rfl⟩

theorem execHoldoverExpired_sameOwners (s : State) : ∃ t, execHoldoverExpired s = .next t ∧ SameOwners s t := by
  refine ⟨_, rfl, ?_⟩
  split
  · refine SameOwners.post ?_ _
    exact ⟨rfl, rfl⟩
  · exact .refl s

/-! ### Reports at the lanes and at the Route Table (R13 to R15, R94, R96) -/

theorem execLaneDomainStop_sameOwners (d : Domain) (order : Picks) (s : State) :
    ∃ t, execLaneDomainStop d order s = .next t ∧ SameOwners s t := by
  refine ⟨_, rfl, ?_⟩
  split
  · exact .refl s
  · next rest _ =>
    have htaken : SameOwners s
        { s with laneReports := rest, outLanes := .tab fun i => laneStopped false d (s.outLanes.get i) } := ⟨rfl, rfl⟩
    exact (htaken.trans (moveInLanes_sameOwners ..)).postRuns _ _

theorem execLaneDomainStart_sameOwners (d : Domain) (s : State) :
    ∃ t, execLaneDomainStart d s = .next t ∧ SameOwners s t := by
  refine ⟨_, rfl, ?_⟩
  split <;> exact ⟨rfl, rfl⟩

theorem takeRouteReport_agree {same : RouteReport → Bool} {rep : RouteReport} {concerns : Route → Bool}
    {f : Route → State → Eff} {order : Picks} (hf : ∀ r u, r ∈ u.routes → OwnersSound u → OwnersSound (f r u).st)
    (h : OwnersSound s) : OwnersSound (takeRouteReport same rep concerns f order s) := by
  unfold takeRouteReport
  split
  · exact h
  · next rest _ =>
    have htaken : OwnersSound { s with routeReports := rest } := h.of_same ⟨rfl, rfl⟩
    exact (forRoutes_keeps_of_mem hf _ _ htaken).postRuns _ _

/-! ### A frame boundary (R52, R70) -/

theorem boundary_agree (d : Domain) (rx : Quad LaneRx) (order : Picks) (h : OwnersSound s) :
    OwnersSound (boundary s d rx order) := by
  have hcounted : SameOwners s (s.countFrame d) := by cases d <;> exact ⟨rfl, rfl⟩
  have hjudged := h.of_same (hcounted.trans (moveInLanes_sameOwners (s.countFrame d) (inLanesAfter s d rx)))
  have hserved : OwnersSound
      { (s.countFrame d).moveInLanes (inLanesAfter s d rx) with
        stores := .tab fun n => ((readSides s d).get n).1 } := hjudged.of_same ⟨rfl, rfl⟩
  have hstepped := forRoutes_keeps_of_mem (P := OwnersSound) (fun r u hr hu => boundaryAt_agree hr hu)
    (s.idsWhere fun r => r.domain == d) _ hserved
  unfold boundary
  refine OwnersAgree.postRuns ?_ _ _
  exact hstepped.of_same ⟨rfl, rfl⟩

/-! ### The Sink Arbiter (R34, R44) -/

theorem mem_allSinks (t : Sink) : t ∈ allSinks := by
  cases t with
  | output l k => cases l <;> cases k <;> decide +kernel
  | storeIn n => cases n <;> decide +kernel

/-- The head of a sound claim queue is the id of a route that waits (R26). -/
theorem waiting_of_mem_claim (hs : SinksSound s) (ho : RoutesOrdered s) {t : Sink} {r : Route} (hr : r ∈ s.routes)
    (hid : r.id ∈ s.claim t) : r.state.holds = false := by
  obtain ⟨hsinks, -⟩ := hs
  obtain ⟨-, -, hwaits, -⟩ := hsinks t (mem_allSinks t)
  obtain ⟨x, hx, he, -, hw⟩ := hwaits r.id hid
  exact ho.id_inj hx hr he ▸ hw

theorem execGrant_agree (t : Sink) (hs : SinksSound s) (h : OwnersSound s) :
    ∃ u, execGrant t s = .next u ∧ OwnersSound u := by
  refine ⟨_, rfl, ?_⟩
  split
  · exact h
  · split
    · exact h
    · next r hhead =>
      obtain ⟨id, hid, hr⟩ := Option.bind_eq_some_iff.mp hhead
      obtain ⟨rfl, hmem⟩ := State.route?_some hr
      have hw := waiting_of_mem_claim hs h.ordered hmem (List.mem_of_mem_head? hid)
      exact (grantHead_agree hmem hw h).post _

theorem execWaitTimeout_agree (id : Nat) (h : OwnersSound s) : ∃ t, execWaitTimeout id s = .next t ∧ OwnersSound t := by
  refine ⟨_, rfl, ?_⟩
  split
  · exact h
  · next r hr =>
    split
    · exact (releaseWaiter_agree _ _ h (State.route?_some hr).2 (.refl r)).post _
    · exact h

/-! ### Device reset and a period of XREF -/

/-- After device reset there is no route and no session is open (R154). -/
theorem ownersSound_of_reset {t : State} (hroutes : t.routes = []) (hsessions : t.sessions = .const .reset) :
    OwnersSound t := by
  have hsession (q : Port) : t.session q = .reset := by simp [State.session, hsessions]
  have hcount (q : Port) : t.ownedBy q = 0 := by simp [State.ownedBy, hroutes]
  refine ⟨by simp [RoutesOrdered, hroutes], fun q _ => ?_, by simp [hroutes], by simp [hroutes]⟩
  rw [hsession, hcount]
  exact ⟨rfl, by decide, fun _ => rfl⟩

/-- A period of XREF changes a record at most in the wait time left. -/
theorem countTimers_routes (s : State) :
    ∃ f : Route → Route, s.countTimers.routes = s.routes.map f ∧
      ∀ r, SameOwnership r (f r) ∧ (f r = r ∨ r.state.holds = false) := by
  refine ⟨_, rfl, fun r => ?_⟩
  split
  · next hst => exact ⟨⟨rfl, rfl, rfl, rfl, rfl⟩, .inr (by simp [hst, RouteState.holds])⟩
  · exact ⟨.refl r, .inl rfl⟩

theorem countTimers_agree (h : OwnersSound s) : OwnersSound s.countTimers := by
  obtain ⟨f, hroutes, hf⟩ := countTimers_routes s
  have hids : s.countTimers.routes.map (·.id) = s.routes.map (·.id) := by
    rw [hroutes, List.map_map]
    exact List.map_congr_left fun r _ => (hf r).1.id
  have hcount (q : Port) : s.countTimers.ownedBy q = s.ownedBy q := by
    simp [State.ownedBy, hroutes, List.countP_map, Function.comp_def, fun r => (hf r).1.owner]
  have hmem {x : Route} (hx : x ∈ s.countTimers.routes) : ∃ r ∈ s.routes, f r = x :=
    List.mem_map.mp (hroutes ▸ hx)
  refine ⟨h.ordered.of_ids (hids ▸ List.Sublist.refl _), fun q _ => ?_, fun q x hx ho => ?_, fun x hx => ?_⟩
  · rw [hcount]; exact h.counts q trivial
  · obtain ⟨r, hr, rfl⟩ := hmem hx
    obtain ⟨hs, -⟩ := hf r
    rw [hs.epoch]; exact h.epochs q r hr (hs.owner ▸ ho)
  · obtain ⟨r, hr, rfl⟩ := hmem hx
    obtain ⟨hs, hsame | hw⟩ := hf r
    · rw [hsame]; exact h.orphans r hr
    · have hsound := h.orphans r hr
      exact hsound.move_of_owned hs (hsound.owned_of_waiting hw)

theorem tick_agree (h : OwnersSound s) : OwnersSound s.tick := by
  unfold State.tick
  split
  · exact h
  · exact (countTimers_agree h).of_same ⟨rfl, rfl⟩

/-! ### Every command -/

theorem OwnersAgree.next_of_same {o : Outcome} (h : OwnersSound s) (ho : ∃ t, o = .next t ∧ SameOwners s t) :
    ∃ t, o = .next t ∧ OwnersSound t :=
  ho.imp fun _ ht => ht.imp_right h.of_same

/-- Every command answers a next state in which owners agree with the table; a GRANT because the claim queues are sound. -/
theorem exec_ownersSound (c : Instr) (hs : SinksSound s) (h : OwnersSound s) :
    ∃ t, exec c s = .next t ∧ OwnersSound t := by
  cases c with
  | openSession p seq params => exact ⟨_, rfl, takeCommand_agree (fun u hu _ => openSession_agree p hu) h⟩
  | closeSession p seq params => exact ⟨_, rfl, takeCommand_agree (fun u hu _ => close_agree hu p) h⟩
  | describeEndpoint p seq params =>
    exact ⟨_, rfl, takeCommand_agree_of_same (fun u => describeEndpoint_sameOwners _ u) h⟩
  | setTag p seq params => exact ⟨_, rfl, takeCommand_agree_of_same (fun u => setTag_sameOwners p _ _ u) h⟩
  | findTag p seq params => exact ⟨_, rfl, takeCommand_agree_of_same (fun u => findTag_sameOwners _ u) h⟩
  | setLane p seq params => exact ⟨_, rfl, takeCommand_agree (fun u hu _ => setLane_agree hu) h⟩
  | setRate p seq params => exact ⟨_, rfl, takeCommand_agree_of_same (fun u => setRate_sameOwners _ _ _ u) h⟩
  | queryDomain p seq params => exact ⟨_, rfl, takeCommand_agree_of_same (fun u => queryDomain_sameOwners _ u) h⟩
  | connect p seq params =>
    refine ⟨_, rfl, takeCommand_agree (fun u hu hopen => ?_) h⟩
    split
    · exact connect_agree hu (hopen rfl)
    · exact hu
  | disconnect p seq params => exact ⟨_, rfl, takeCommand_agree (fun u hu _ => disconnect_agree hu) h⟩
  | setGain p seq params => exact ⟨_, rfl, takeCommand_agree (fun u hu _ => setGain_agree hu) h⟩
  | adopt p seq params => exact ⟨_, rfl, takeCommand_agree (fun u hu hopen => adopt_agree hu (hopen rfl)) h⟩
  | queryRoute p seq params => exact ⟨_, rfl, takeCommand_agree_of_same (fun u => queryRoute_sameOwners _ u) h⟩
  | listRoutes p seq params => exact ⟨_, rfl, takeCommand_agree_of_same (fun u => listRoutes_sameOwners _ _ u) h⟩
  | querySink p seq params => exact ⟨_, rfl, takeCommand_agree_of_same (fun u => querySink_sameOwners _ u) h⟩
  | setTrim p seq params => exact ⟨_, rfl, takeCommand_agree_of_same (fun u => setTrim_sameOwners p _ _ u) h⟩
  | resetMeter p seq params => exact ⟨_, rfl, takeCommand_agree_of_same (fun u => resetMeter_sameOwners _ u) h⟩
  | configureStore p seq params =>
    exact ⟨_, rfl, takeCommand_agree_of_same (fun u => configureStore_sameOwners p _ _ _ _ _ u) h⟩
  | storeWrite p seq params => exact ⟨_, rfl, takeCommand_agree_of_same (fun u => storeWrite_sameOwners _ _ _ u) h⟩
  | storeRead p seq params => exact ⟨_, rfl, takeCommand_agree_of_same (fun u => storeRead_sameOwners _ _ u) h⟩
  | flushStore p seq params => exact ⟨_, rfl, takeCommand_agree_of_same (fun u => flushStore_sameOwners _ u) h⟩
  | queryStore p seq params => exact ⟨_, rfl, takeCommand_agree_of_same (fun u => queryStore_sameOwners _ u) h⟩
  | readEvents p seq params => exact ⟨_, rfl, takeCommand_agree_of_same (fun u => readEvents_sameOwners p _ u) h⟩
  | ackEvents p seq params => exact ⟨_, rfl, takeCommand_agree_of_same (fun u => ackEvents_sameOwners p _ u) h⟩
  | fetch p clocked => exact h.next_of_same (execFetch_sameOwners p clocked s)
  | frameError p bytes => exact execFrameError_agree p bytes h
  | unknownCommand p code seq params => exact execUnknownCommand_agree p code seq params h
  | frameDiscarded p bytes => exact h.next_of_same (execFrameDiscarded_sameOwners p bytes s)
  | portReset p => exact execPortReset_agree p h
  | portResetRelease p => exact h.next_of_same (execPortResetRelease_sameOwners p s)
  | deviceReset => exact ⟨_, rfl, ownersSound_of_reset rfl rfl⟩
  | lockComplete d => exact h.next_of_same (execLockComplete_sameOwners d s)
  | clockFound r => exact h.next_of_same (execClockFound_sameOwners r s)
  | clockLost => exact h.next_of_same (execClockLost_sameOwners s)
  | holdoverExpired => exact h.next_of_same (execHoldoverExpired_sameOwners s)
  | frameBoundary d rx order =>
    refine ⟨_, rfl, ?_⟩
    split
    · exact boundary_agree d rx order h
    · exact h
  | routeTableDomainStop d order =>
    exact ⟨_, rfl, takeRouteReport_agree (fun r u hr hu => suspend_agree _ _ hr hu) h⟩
  | routeTableDomainStart d order => exact ⟨_, rfl, takeRouteReport_agree (fun r u hr hu => resume_agree _ hr hu) h⟩
  | laneDomainStop d order => exact h.next_of_same (execLaneDomainStop_sameOwners d order s)
  | laneDomainStart d => exact h.next_of_same (execLaneDomainStart_sameOwners d s)
  | sourcesDown lane order => exact ⟨_, rfl, takeRouteReport_agree (fun r u hr hu => suspend_agree _ _ hr hu) h⟩
  | sourcesUp lane order => exact ⟨_, rfl, takeRouteReport_agree (fun r u hr hu => resume_agree _ hr hu) h⟩
  | grant t => exact execGrant_agree t hs h
  | waitTimeout id => exact execWaitTimeout_agree id h
  | commandCompletes p => exact execCommandCompletes_agree p h
  | resetRelease => exact ⟨_, rfl, h.of_same ⟨rfl, rfl⟩⟩

theorem step_ownersSound (hs : SinksSound s) (h : OwnersSound s) : ∃ t, step s = .next t ∧ OwnersSound t := by
  unfold step
  split
  · exact ⟨_, rfl, tick_agree h⟩
  · next c rest _ =>
    exact exec_ownersSound (s := { s with pending := rest }) c hs (h.of_same ⟨rfl, rfl⟩)

/-- Settles O6, by one lemma for each command and for a period of XREF. -/
theorem ownersSoundKept : Obligations.OwnersSoundKept := by
  intro s t hordered hsinks howned hepochs horphans hstep
  obtain ⟨u, hu, hsound⟩ :=
    step_ownersSound hsinks (ownersSound_iff.mpr ⟨hordered, howned, hepochs, horphans⟩)
  obtain rfl : u = t := Host.Outcome.next.inj (hu.symm.trans hstep)
  exact (ownersSound_iff.mp hsound).2

end Sys2Proof.Machine
end

section
/-! The clock domain records and the word-clock monitor as one projection of the state, and the operations that leave it as
it is: all but SET_RATE, the happenings of chapter 4 themselves, a frame boundary's count, a reset and a period of XREF. -/

namespace Sys2Proof.Machine

/-- The records of chapter 4: the three domains and the word-clock monitor (R67, R73). -/
def State.clocks (s : State) : IntDomain × IntDomain × FxDomain × Monitor := (s.fa, s.fb, s.fx, s.monitor)

theorem clocks_eq_iff {s t : State} :
    t.clocks = s.clocks ↔ t.fa = s.fa ∧ t.fb = s.fb ∧ t.fx = s.fx ∧ t.monitor = s.monitor := by
  simp [State.clocks]

theorem SameButRoutes.clocks {s t : State} (h : SameButRoutes s t) : t.clocks = s.clocks := by
  unfold SameButRoutes at h; rw [← h]; rfl

/-! ### The shared operations -/

@[simp] theorem post_clocks (s : State) (es : List Emit) : (s.post es).clocks = s.clocks := by
  rw [State.post_eq]; rfl

@[simp] theorem postRuns_clocks (s : State) (order : Picks) (runs : List (List Emit)) :
    (s.postRuns order runs).clocks = s.clocks := by
  rw [State.postRuns_eq]; rfl

@[simp] theorem setPort_clocks (s : State) (p : Port) (u : PortUnit) : (s.setPort p u).clocks = s.clocks := rfl

@[simp] theorem answer_clocks (s : State) (p : Port) (r : Response) (n : Nat) : (s.answer p r n).clocks = s.clocks := rfl

@[simp] theorem reportSources_clocks (s : State) (i : Idx) (before after : LaneState) :
    (s.reportSources i before after).clocks = s.clocks := by
  unfold State.reportSources
  split
  · rfl
  · split <;> rfl

@[simp] theorem moveInLanes_clocks (s : State) (after : Quad Lane) : (s.moveInLanes after).clocks = s.clocks := by
  simp only [State.moveInLanes, reportSources_clocks]; rfl

theorem forRoutes_clocks {f : Route → State → Eff} (hf : ∀ r s, SameButRoutes s (f r s).st) (ids : List Nat) (s : State) :
    (forRoutes f ids s).1.clocks = s.clocks :=
  (forRoutes_same hf ids s).clocks

/-! ### What an effect at one route leaves alone -/

theorem closeHolder_same (r : Route) (s : State) : SameButRoutes s (closeHolder r s).st := by
  unfold closeHolder
  split
  · exact Eq.refl _
  · split
    · exact releaseHolder_same ..
    · exact releaseHolder_same ..
    · exact Eq.refl _
    · exact Eq.refl _
    · exact Eq.refl _
    · exact SameButRoutes.rfl s

theorem preemptHolder_same (r : Route) (s : State) : SameButRoutes s (preemptHolder r s).st := by
  unfold preemptHolder
  split
  · exact Eq.refl _
  · exact Eq.refl _
  · exact carryOut_same ..
  · exact carryOut_same ..
  · exact SameButRoutes.rfl s
  · exact SameButRoutes.rfl s

/-- A route that steps at a boundary changes its record, and as far as its ramp-down ends, what its release or its requeue
changes. -/
theorem boundaryAt_same (r : Route) (s : State) : SameButRoutes s (boundaryAt r s).st := by
  unfold boundaryAt
  dsimp only
  split
  · exact Eq.refl _
  · exact Eq.refl _
  · exact Eq.refl _
  · exact Eq.refl _
  · split
    · exact SameButRoutes.trans (t := s.setRoute (stepRoute r).1) (Eq.refl _) (carryOut_same ..)
    · exact Eq.refl _

theorem createRoute_same (s : State) (p : Port) (r : Route) : SameButRoutes s (s.createRoute p r) := by
  obtain ⟨q, h⟩ := createRoute_eq s p r; rw [h]; exact Eq.refl _

/-! ### The close of a session, and the frame a port takes (R126, R130, R150 to R153) -/

@[simp] theorem close_clocks (s : State) (p : Port) : (s.close p).eff.st.clocks = s.clocks :=
  (forRoutes_clocks closeHolder_same _ _).trans (forRoutes_clocks (releaseWaiter_same .disconnected true) _ _)

@[simp] theorem portResetEffects_clocks (s : State) (p : Port) : (s.portResetEffects p).clocks = s.clocks := by
  unfold State.portResetEffects
  dsimp only
  split <;> simp

@[simp] theorem settle_clocks (s : State) (p : Port) : (s.settle p).clocks = s.clocks := by
  unfold State.settle
  split
  · exact portResetEffects_clocks s p
  · rfl

/-! ### Host commands other than SET_RATE -/

theorem openSession_clocks (p : Port) (s : State) : (openSession p s).st.clocks = s.clocks := by
  unfold openSession; dsimp only; split <;> rfl

theorem closeSession_clocks (p : Port) (s : State) : (closeSession p s).st.clocks = s.clocks := close_clocks s p

theorem describeEndpoint_clocks (b : Byte) (s : State) : (describeEndpoint b s).st.clocks = s.clocks := by
  unfold describeEndpoint; split <;> rfl

theorem setTag_clocks (p : Port) (b : Byte) (chars : List Byte) (s : State) :
    (setTag p b chars s).st.clocks = s.clocks := by
  unfold setTag
  dsimp only
  split
  · rfl
  · next e _ =>
    split
    · rfl
    · cases e <;> rfl

theorem findTag_clocks (chars : List Byte) (s : State) : (findTag chars s).st.clocks = s.clocks := by
  unfold findTag
  dsimp only
  split
  · rfl
  · split <;> rfl

theorem changeLane_clocks (s : State) (l : LaneId) (after : Lane) : (s.changeLane l after).clocks = s.clocks := by
  cases l with
  | input i => exact reportSources_clocks ..
  | output i => unfold State.changeLane State.countDraw; dsimp only; split <;> rfl

theorem releaseLane_clocks (s : State) (l : LaneId) : (s.releaseLane l).st.clocks = s.clocks :=
  (forRoutes_clocks (releaseHolder_same .endpointDisabled true) _ _).trans
    (forRoutes_clocks (releaseWaiter_same .endpointDisabled true) _ _)

theorem setLane_clocks (p : Port) (lb eb db : Byte) (s : State) : (setLane p lb eb db s).st.clocks = s.clocks := by
  unfold setLane
  split
  · next l enable d _ _ _ =>
    dsimp only
    split
    · rfl
    · split
      · rfl
      · refine (changeLane_clocks ..).trans ?_
        split
        · exact releaseLane_clocks s l
        · rfl
  · rfl

theorem queryDomain_clocks (db : Byte) (s : State) : (queryDomain db s).st.clocks = s.clocks := by
  unfold queryDomain; split <;> rfl

theorem placeRoute_clocks (p : Port) (pl : Placement) (r : Route) (s : State) :
    (placeRoute p pl r s).st.clocks = s.clocks := by
  have hmade := (createRoute_same s p r).clocks
  cases pl with
  | holder => exact hmade
  | preempt h => exact (preemptHolder_same ..).clocks.trans hmade
  | wait => exact hmade
  | sinkBusy => rfl
  | queueFull => rfl

theorem connect_clocks (p : Port) (a : ConnectBytes) (s : State) : (connect p a s).st.clocks = s.clocks := by
  rcases connect_cases p a s with ⟨_, he⟩ | ⟨_, _, _, _, _, -, he⟩
  · rw [he]; rfl
  · rw [he]; exact placeRoute_clocks ..

theorem withRoute_clocks {s : State} {k : Route → Reply} (id : Nat) (hk : ∀ r, (k r).st.clocks = s.clocks) :
    (withRoute id s k).st.clocks = s.clocks := by
  rcases withRoute_cases id s k with ⟨_, he⟩ | ⟨r, -, he⟩
  · rw [he]; rfl
  · rw [he]; exact hk r

theorem disconnect_clocks (p : Port) (id : Nat) (s : State) : (disconnect p id s).st.clocks = s.clocks := by
  refine withRoute_clocks id fun r => ?_
  dsimp only
  split
  · rfl
  · split
    · exact (releaseWaiter_same .disconnected false r s).clocks
    · exact (releaseHolder_same .disconnected false r s).clocks
    · exact (releaseHolder_same .disconnected false r s).clocks
    all_goals rfl

theorem setGain_clocks (p : Port) (id target : Nat) (s : State) : (setGain p id target s).st.clocks = s.clocks := by
  unfold setGain
  split
  · rfl
  · refine withRoute_clocks id fun r => ?_
    split
    · rfl
    · split <;> rfl

theorem adopt_clocks (p : Port) (id : Nat) (s : State) : (adopt p id s).st.clocks = s.clocks := by
  refine withRoute_clocks id fun r => ?_
  dsimp only
  split
  · rfl
  · split <;> rfl

theorem queryRoute_clocks (id : Nat) (s : State) : (queryRoute id s).st.clocks = s.clocks :=
  withRoute_clocks id fun _ => rfl

theorem listRoutes_clocks (kind value : Byte) (s : State) : (listRoutes kind value s).st.clocks = s.clocks := by
  unfold listRoutes; split <;> rfl

theorem querySink_clocks (b : Byte) (s : State) : (querySink b s).st.clocks = s.clocks := by
  unfold querySink
  rcases withSink_cases b s _ with ⟨_, he⟩ | ⟨_, he⟩ <;> (rw [he]; rfl)

theorem withChannel_clocks {s : State} {k : Idx → Idx → Reply} (b : Byte) (hk : ∀ l c, (k l c).st.clocks = s.clocks) :
    (withChannel b s k).st.clocks = s.clocks := by
  rcases withChannel_cases b s k with ⟨_, he⟩ | ⟨l, c, he⟩
  · rw [he]; rfl
  · rw [he]; exact hk l c

theorem setTrim_clocks (p : Port) (b : Byte) (trim : Nat) (s : State) : (setTrim p b trim s).st.clocks = s.clocks := by
  unfold setTrim
  split
  · rfl
  · exact withChannel_clocks b fun _ _ => rfl

theorem resetMeter_clocks (b : Byte) (s : State) : (resetMeter b s).st.clocks = s.clocks :=
  withChannel_clocks b fun _ _ => rfl

theorem configureStore_clocks (p : Port) (nb cap pol : Byte) (low high : Nat) (s : State) :
    (configureStore p nb cap pol low high s).st.clocks = s.clocks := by
  unfold configureStore; dsimp only; repeat' split
  all_goals rfl

theorem storeWrite_clocks (nb count : Byte) (xs : List Sample) (s : State) :
    (storeWrite nb count xs s).st.clocks = s.clocks := by
  unfold storeWrite; dsimp only; repeat' split
  all_goals rfl

theorem storeRead_clocks (nb count : Byte) (s : State) : (storeRead nb count s).st.clocks = s.clocks := by
  unfold storeRead; dsimp only; repeat' split
  all_goals rfl

theorem flushStore_clocks (nb : Byte) (s : State) : (flushStore nb s).st.clocks = s.clocks := by
  unfold flushStore; dsimp only; repeat' split
  all_goals rfl

theorem queryStore_clocks (nb : Byte) (s : State) : (queryStore nb s).st.clocks = s.clocks := by
  unfold queryStore; split <;> rfl

theorem readEvents_clocks (p : Port) (n : Nat) (s : State) : (readEvents p n s).st.clocks = s.clocks := by
  unfold readEvents; split <;> rfl

theorem ackEvents_clocks (p : Port) (n : Nat) (s : State) : (ackEvents p n s).st.clocks = s.clocks := by
  unfold ackEvents; dsimp only; split <;> rfl

/-! ### The other transactions of a port, reports at the blocks, and the Sink Arbiter -/

theorem execFetch_clocks (p : Port) (n : Nat) (s : State) :
    ∃ t, execFetch p n s = .next t ∧ t.clocks = s.clocks := by
  refine ⟨_, rfl, ?_⟩
  split <;> rfl

theorem execFrameError_clocks (p : Port) (bytes : List Byte) (s : State) :
    ∃ t, execFrameError p bytes s = .next t ∧ t.clocks = s.clocks := by
  refine ⟨_, rfl, ?_⟩
  split
  · dsimp only
    split <;> exact settle_clocks s p
  · rfl

theorem execFrameDiscarded_clocks (p : Port) (bytes : List Byte) (s : State) :
    ∃ t, execFrameDiscarded p bytes s = .next t ∧ t.clocks = s.clocks := by
  refine ⟨_, rfl, ?_⟩
  split
  · split <;> rfl
  · rfl

theorem execPortReset_clocks (p : Port) (s : State) : ∃ t, execPortReset p s = .next t ∧ t.clocks = s.clocks := by
  refine ⟨_, rfl, ?_⟩
  dsimp only
  split
  · rfl
  all_goals exact portResetEffects_clocks _ p

theorem execPortResetRelease_clocks (p : Port) (s : State) :
    ∃ t, execPortResetRelease p s = .next t ∧ t.clocks = s.clocks := by
  refine ⟨_, rfl, ?_⟩
  split <;> rfl

theorem execCommandCompletes_clocks (p : Port) (s : State) :
    ∃ t, execCommandCompletes p s = .next t ∧ t.clocks = s.clocks := by
  refine ⟨_, rfl, ?_⟩
  split
  · split
    · exact portResetEffects_clocks s p
    · rfl
  all_goals rfl

theorem execLaneDomainStop_clocks (d : Domain) (order : Picks) (s : State) :
    ∃ t, execLaneDomainStop d order s = .next t ∧ t.clocks = s.clocks := by
  refine ⟨_, rfl, ?_⟩
  split
  · rfl
  · exact (postRuns_clocks ..).trans (moveInLanes_clocks ..)

theorem execLaneDomainStart_clocks (d : Domain) (s : State) :
    ∃ t, execLaneDomainStart d s = .next t ∧ t.clocks = s.clocks := by
  refine ⟨_, rfl, ?_⟩
  split <;> rfl

theorem takeRouteReport_clocks {f : Route → State → Eff} (hf : ∀ r s, SameButRoutes s (f r s).st)
    (same : RouteReport → Bool) (rep : RouteReport) (concerns : Route → Bool) (order : Picks) (s : State) :
    (takeRouteReport same rep concerns f order s).clocks = s.clocks := by
  unfold takeRouteReport
  split
  · rfl
  · exact (postRuns_clocks ..).trans (forRoutes_clocks hf ..)

theorem execGrant_clocks (t : Sink) (s : State) : ∃ u, execGrant t s = .next u ∧ u.clocks = s.clocks := by
  refine ⟨_, rfl, ?_⟩
  split
  · rfl
  · split
    · rfl
    · exact post_clocks ..

theorem execWaitTimeout_clocks (id : Nat) (s : State) :
    ∃ t, execWaitTimeout id s = .next t ∧ t.clocks = s.clocks := by
  refine ⟨_, rfl, ?_⟩
  split
  · rfl
  · split
    · exact (post_clocks ..).trans (releaseWaiter_same ..).clocks
    · rfl

/-- A boundary of a running domain counts its frame; nothing else of the clock domains changes (R70). -/
theorem boundary_clocks (s : State) (d : Domain) (rx : Quad LaneRx) (order : Picks) :
    (boundary s d rx order).clocks = (s.countFrame d).clocks := by
  have hrouted : (beforeWrites s d rx).1.clocks = ((s.countFrame d).moveInLanes (inLanesAfter s d rx)).clocks :=
    forRoutes_clocks boundaryAt_same ..
  exact (postRuns_clocks ..).trans (hrouted.trans (moveInLanes_clocks ..))

end Sys2Proof.Machine
end

section
/-! Every command keeps the clock domains and the word-clock monitor in agreement, and so does a period of XREF. -/

namespace Sys2Proof.Machine

variable {s t : State}

/-- The agreement is about the clock domains and the monitor alone. -/
theorem ClocksSound.of_clocks (h : ClocksSound s) (he : t.clocks = s.clocks) : ClocksSound t := by
  obtain ⟨hfa, hfb, hfx, hm⟩ := clocks_eq_iff.mp he
  unfold ClocksSound FxSound at *
  rw [hfa, hfb, hfx, hm]
  exact h

theorem ClocksSound.next_of_clocks {o : Outcome} (h : ClocksSound s) (ho : ∃ t, o = .next t ∧ t.clocks = s.clocks) :
    ∃ t, o = .next t ∧ ClocksSound t :=
  ho.imp fun _ ht => ht.imp_right h.of_clocks

/-! ### SET_RATE (Tables 4.2 and 4.3) -/

/-- FA or FB with a rate code of Table 0.5 set is OFF exactly at rate code 0. -/
theorem intSound_withCode (x : IntDomain) {code : Nat} (h : code ≤ 5) : IntSound (x.withCode code) := by
  unfold IntSound IntDomain.withCode
  match code, h with
  | 0, _ | 1, _ | 2, _ | 3, _ | 4, _ | 5, _ => simp [Rate.ofCode?]

theorem withRate_clocksSound (h : ClocksSound s) {d : Domain} {code flags : Nat}
    (hgood : setRateBad d code flags = false) : ClocksSound (s.withRate d code) := by
  obtain ⟨ha, hb, hx⟩ := h
  cases d with
  | fa => exact ⟨intSound_withCode s.fa (by simp [setRateBad] at hgood; omega), hb, hx⟩
  | fb => exact ⟨ha, intSound_withCode s.fb (by simp [setRateBad] at hgood; omega), hx⟩
  | fx =>
    unfold State.withRate
    dsimp only
    split
    · exact ⟨ha, hb, by simp [FxSound, State.leaveSeeking]⟩
    · exact ⟨ha, hb, by simp [FxSound, State.enterSeeking, Option.isSome_iff_ne_none]⟩

/-- The domain after an accepted SET_RATE, with the stop that it reports where the domain ran (R69, R79). -/
def State.rateSet (s : State) (d : Domain) (code : Nat) : State :=
  if s.running d then (s.withRate d code).reportStop d else s.withRate d code

theorem rateSet_clocks (s : State) (d : Domain) (code : Nat) : (s.rateSet d code).clocks = (s.withRate d code).clocks := by
  unfold State.rateSet; split <;> rfl

/-- A SET_RATE that passes its two checks (R78) is accepted. -/
theorem setRate_accepted {db cb fb : Byte} {d : Domain} (hd : domain? db = some d)
    (hgood : setRateBad d cb.toNat fb.toNat = false) (hfree : bitOf fb 0 = true ∨ s.holderCount d = 0) :
    setRate db cb fb s =
      accept (s.rateSet d cb.toNat)
        [{ aud := .everyOpen, ev := .rateChanged d cb.toNat }, (s.rateSet d cb.toNat).domainEvent d]
        [db, cb, byteOf ((s.rateSet d cb.toNat).domainState d).code,
          byteOf (if s.running d then s.holderCount d else 0)] := by
  have hbusy : (!bitOf fb 0 && s.holderCount d != 0) = false := by
    rcases hfree with h | h <;> simp [h]
  unfold setRate
  simp only [hd, hgood, hbusy, Bool.false_eq_true, if_false]
  rfl

/-- A SET_RATE is refused, or its domain and code are ones it can take and it is accepted. -/
theorem setRate_cases (db cb fb : Byte) (s : State) :
    (∃ res, setRate db cb fb s = refuse res s) ∨
    ∃ d, setRateBad d cb.toNat fb.toNat = false ∧ (setRate db cb fb s).st = s.rateSet d cb.toNat := by
  cases hd : domain? db with
  | none => exact .inl ⟨.badArgument, by simp only [setRate, hd]⟩
  | some d =>
    by_cases hgood : setRateBad d cb.toNat fb.toNat = false
    · by_cases hfree : bitOf fb 0 = true ∨ s.holderCount d = 0
      · exact .inr ⟨d, hgood, by rw [setRate_accepted hd hgood hfree]; rfl⟩
      · obtain ⟨hforce, hholders⟩ := not_or.mp hfree
        exact .inl ⟨.domainBusy, by simp [setRate, hd, hgood, hforce, hholders]⟩
    · exact .inl ⟨.badArgument, by simp [setRate, hd, hgood]⟩

theorem setRate_clocksSound (db cb fb : Byte) (h : ClocksSound s) : ClocksSound (setRate db cb fb s).st := by
  rcases setRate_cases db cb fb s with ⟨_, he⟩ | ⟨d, hgood, he⟩
  · rw [he]; exact h
  · rw [he]; exact (withRate_clocksSound h hgood).of_clocks (rateSet_clocks ..)

/-! ### Locks and the word clock (R72 to R77) -/

theorem lockedState_clocksSound {d : Domain} (h : ClocksSound s) (hl : lockedState s d = some t) : ClocksSound t := by
  obtain ⟨ha, hb, hx⟩ := h
  cases d with
  | fa =>
    simp only [lockedState] at hl
    split at hl <;> cases hl
    next hst => exact ⟨by simpa [IntSound, hst] using ha, hb, hx⟩
  | fb =>
    simp only [lockedState] at hl
    split at hl <;> cases hl
    next hst => exact ⟨ha, by simpa [IntSound, hst] using hb, hx⟩
  | fx =>
    simp only [lockedState] at hl
    split at hl <;> cases hl
    next m hst => exact ⟨ha, hb, by simpa [FxSound, hst] using hx⟩

theorem execLockComplete_clocksSound (d : Domain) (h : ClocksSound s) :
    ∃ t, execLockComplete d s = .next t ∧ ClocksSound t := by
  refine ⟨_, rfl, ?_⟩
  split
  · exact h
  · split
    · exact h
    · next hlocked => exact (lockedState_clocksSound h hlocked).of_clocks (post_clocks ..)

/-- A clock found, with the monitor's judgement already the rate found: FX in SEEKING or in HOLDOVER enters LOCKING or LOCKED
at that rate, and no report stays due. -/
theorem fxClockFound_clocksSound {r : Rate} (ha : IntSound s.fa) (hb : IntSound s.fb)
    (hext : s.fx.external = true ↔ s.fx.state ≠ .off) (hclock : s.monitor.clock = some r)
    (hdue : s.fx.state ≠ .seeking → s.monitor.reportDue = false)
    (hrate : ∀ m, s.fx.state = .locking m ∨ s.fx.state = .locked m → m = r) : ClocksSound (fxClockFound r s) := by
  unfold fxClockFound
  split
  · next hst =>
    refine ClocksSound.of_clocks (s := s.leaveSeeking (.locking r)) ⟨ha, hb, ?_⟩ (post_clocks ..)
    simpa [FxSound, State.leaveSeeking, State.setFx, hst, hclock] using hext
  · next m left hst =>
    split
    · next hr =>
      refine ClocksSound.of_clocks (s := s.setFx (.locked m)) ⟨ha, hb, ?_⟩ (post_clocks ..)
      simpa [FxSound, State.setFx, hst, hclock, hdue, hr] using hext
    · refine ClocksSound.of_clocks (s := s.setFx (.locking r)) ⟨ha, hb, ?_⟩ (post_clocks ..)
      simpa [FxSound, State.setFx, hst, hclock, hdue] using hext
  · next hst => exact ⟨ha, hb, by simpa [FxSound, hst, hdue] using hext⟩
  · next m hst => exact ⟨ha, hb, by simpa [FxSound, hst, hdue, hclock, hrate m (.inl hst)] using hext⟩
  · next m hst => exact ⟨ha, hb, by simpa [FxSound, hst, hdue, hclock, hrate m (.inr hst)] using hext⟩

/-- FX in LOCKING or LOCKED has the clock, at its measured rate (R74). -/
theorem FxSound.clock_present {m : Rate} (h : FxSound s) (hst : s.fx.state = .locking m ∨ s.fx.state = .locked m) :
    s.monitor.clock = some m := by
  obtain ⟨-, -, hstate⟩ := h
  rcases hst with hst | hst <;> simpa [hst] using hstate

theorem execClockFound_clocksSound (r : Rate) (h : ClocksSound s) :
    ∃ t, execClockFound r s = .next t ∧ ClocksSound t := by
  have ⟨ha, hb, hx⟩ := h
  have ⟨hext, _, _⟩ := hx
  refine ⟨_, rfl, ?_⟩
  split
  · exact h
  · split
    · next hnone =>
      refine fxClockFound_clocksSound (s := { s with monitor := { clock := some r, reportDue := false } })
        ha hb hext rfl (fun _ => rfl) fun m hm => ?_
      have hpresent := hx.clock_present hm
      simp [hnone] at hpresent
    · next r0 hclock =>
      split
      · next hdue =>
        obtain ⟨-, rfl, hseek⟩ := hdue
        exact fxClockFound_clocksSound ha hb hext hclock (fun hne => absurd hseek hne) (by simp [hseek])
      · exact h

theorem execClockLost_clocksSound (h : ClocksSound s) : ∃ t, execClockLost s = .next t ∧ ClocksSound t := by
  have ⟨ha, hb, hext, _, hstate⟩ := h
  refine ⟨_, rfl, ?_⟩
  split
  · exact h
  · dsimp only
    split
    · next m hst =>
      refine ClocksSound.of_clocks
        (s := ({ s with monitor := { clock := none, reportDue := false } } : State).setFx .seeking)
        ⟨ha, hb, ?_⟩ (post_clocks ..)
      simpa [FxSound, State.setFx, hst] using hext
    · next m hst =>
      refine ClocksSound.of_clocks
        (s := ({ s with monitor := { clock := none, reportDue := false } } : State).setFx
          (.holdover m (msToXref holdoverMs)))
        ⟨ha, hb, ?_⟩ (post_clocks ..)
      simpa [FxSound, State.setFx, hst, holdoverMs] using hext
    · next hst => exact ⟨ha, hb, by simpa [FxSound, hst] using hext⟩
    · next hst => exact ⟨ha, hb, by simpa [FxSound, hst] using hext⟩
    · next m left hst =>
      simp only [hst] at hstate
      obtain ⟨-, hleft⟩ := hstate
      exact ⟨ha, hb, by simpa [FxSound, hst, hleft] using hext⟩

theorem execHoldoverExpired_clocksSound (h : ClocksSound s) :
    ∃ t, execHoldoverExpired s = .next t ∧ ClocksSound t := by
  have ⟨ha, hb, hext, _⟩ := h
  refine ⟨_, rfl, ?_⟩
  split
  · next hover =>
    refine ClocksSound.of_clocks (s := s.enterSeeking) ⟨ha, hb, ?_⟩ (post_clocks ..)
    cases hst : s.fx.state with
    | holdover m left =>
      simpa [FxSound, State.enterSeeking, State.setFx, hst, Option.isSome_iff_ne_none] using hext
    | off | seeking | locking m | locked m => simp [FxState.holdoverOver, hst] at hover
  · exact h

/-! ### A frame boundary and a period of XREF (R70, R76) -/

theorem countFrame_clocksSound (d : Domain) (h : ClocksSound s) : ClocksSound (s.countFrame d) := by
  obtain ⟨ha, hb, hx⟩ := h
  cases d <;> exact ⟨ha, hb, hx⟩

theorem countTimers_clocksSound (h : ClocksSound s) : ClocksSound s.countTimers := by
  obtain ⟨ha, hb, hx⟩ := h
  refine ⟨ha, hb, ?_⟩
  unfold State.countTimers
  cases hst : s.fx.state with
  | holdover m left =>
    obtain ⟨hext, hreport, hstate⟩ := hx
    simp only [hst] at hext hreport hstate
    obtain ⟨hclock, hleft⟩ := hstate
    exact ⟨by simpa using hext, by simpa using hreport, hclock, by omega⟩
  | off | seeking | locking m | locked m => simpa [FxSound, hst] using hx

theorem tick_clocksSound (h : ClocksSound s) : ClocksSound s.tick := by
  unfold State.tick
  split
  · exact h
  · exact (countTimers_clocksSound h).of_clocks rfl

/-! ### Every command -/

/-- A taken frame keeps the agreement when its own meaning does. -/
theorem takeCommand_clocksSound {p : Port} {seq : Byte} {params : List Byte} {lengthOk needsSession : Bool}
    {own : State → Reply} (hown : ∀ u, ClocksSound u → ClocksSound (own u).st) (h : ClocksSound s) :
    ClocksSound (takeCommand p seq params lengthOk needsSession own s) := by
  have hsettled : ClocksSound (s.settle p) := h.of_clocks (settle_clocks s p)
  have hreply : ClocksSound
      (if !lengthOk then refuse .badLength (s.settle p)
        else if needsSession && !((s.settle p).session p).isOpen then refuse .noSession (s.settle p)
        else own (s.settle p)).st := by
    split
    · exact hsettled
    · split
      · exact hsettled
      · exact hown _ hsettled
  unfold takeCommand
  split
  · dsimp only
    split
    · exact hsettled.of_clocks rfl
    all_goals exact hreply.of_clocks ((answer_clocks ..).trans (post_clocks ..))
  · exact h

/-- A taken frame whose meaning reaches neither a clock domain nor the monitor. -/
theorem takeCommand_clocksSound_of_clocks {p : Port} {seq : Byte} {params : List Byte} {lengthOk needsSession : Bool}
    {own : State → Reply} (hown : ∀ u, (own u).st.clocks = u.clocks) (h : ClocksSound s) :
    ClocksSound (takeCommand p seq params lengthOk needsSession own s) :=
  takeCommand_clocksSound (fun u hu => hu.of_clocks (hown u)) h

theorem exec_clocksSound (c : Instr) (h : ClocksSound s) : ∃ t, exec c s = .next t ∧ ClocksSound t := by
  cases c with
  | openSession p seq params => exact ⟨_, rfl, takeCommand_clocksSound_of_clocks (openSession_clocks p) h⟩
  | closeSession p seq params => exact ⟨_, rfl, takeCommand_clocksSound_of_clocks (closeSession_clocks p) h⟩
  | describeEndpoint p seq params => exact ⟨_, rfl, takeCommand_clocksSound_of_clocks (describeEndpoint_clocks _) h⟩
  | setTag p seq params => exact ⟨_, rfl, takeCommand_clocksSound_of_clocks (setTag_clocks p _ _) h⟩
  | findTag p seq params => exact ⟨_, rfl, takeCommand_clocksSound_of_clocks (findTag_clocks _) h⟩
  | setLane p seq params => exact ⟨_, rfl, takeCommand_clocksSound_of_clocks (setLane_clocks p _ _ _) h⟩
  | setRate p seq params => exact ⟨_, rfl, takeCommand_clocksSound (fun _ hu => setRate_clocksSound _ _ _ hu) h⟩
  | queryDomain p seq params => exact ⟨_, rfl, takeCommand_clocksSound_of_clocks (queryDomain_clocks _) h⟩
  | connect p seq params =>
    refine ⟨_, rfl, takeCommand_clocksSound_of_clocks (fun u => ?_) h⟩
    split
    · exact connect_clocks ..
    · rfl
  | disconnect p seq params => exact ⟨_, rfl, takeCommand_clocksSound_of_clocks (disconnect_clocks p _) h⟩
  | setGain p seq params => exact ⟨_, rfl, takeCommand_clocksSound_of_clocks (setGain_clocks p _ _) h⟩
  | adopt p seq params => exact ⟨_, rfl, takeCommand_clocksSound_of_clocks (adopt_clocks p _) h⟩
  | queryRoute p seq params => exact ⟨_, rfl, takeCommand_clocksSound_of_clocks (queryRoute_clocks _) h⟩
  | listRoutes p seq params => exact ⟨_, rfl, takeCommand_clocksSound_of_clocks (listRoutes_clocks _ _) h⟩
  | querySink p seq params => exact ⟨_, rfl, takeCommand_clocksSound_of_clocks (querySink_clocks _) h⟩
  | setTrim p seq params => exact ⟨_, rfl, takeCommand_clocksSound_of_clocks (setTrim_clocks p _ _) h⟩
  | resetMeter p seq params => exact ⟨_, rfl, takeCommand_clocksSound_of_clocks (resetMeter_clocks _) h⟩
  | configureStore p seq params =>
    exact ⟨_, rfl, takeCommand_clocksSound_of_clocks (configureStore_clocks p _ _ _ _ _) h⟩
  | storeWrite p seq params => exact ⟨_, rfl, takeCommand_clocksSound_of_clocks (storeWrite_clocks _ _ _) h⟩
  | storeRead p seq params => exact ⟨_, rfl, takeCommand_clocksSound_of_clocks (storeRead_clocks _ _) h⟩
  | flushStore p seq params => exact ⟨_, rfl, takeCommand_clocksSound_of_clocks (flushStore_clocks _) h⟩
  | queryStore p seq params => exact ⟨_, rfl, takeCommand_clocksSound_of_clocks (queryStore_clocks _) h⟩
  | readEvents p seq params => exact ⟨_, rfl, takeCommand_clocksSound_of_clocks (readEvents_clocks p _) h⟩
  | ackEvents p seq params => exact ⟨_, rfl, takeCommand_clocksSound_of_clocks (ackEvents_clocks p _) h⟩
  | fetch p clocked => exact h.next_of_clocks (execFetch_clocks p clocked s)
  | frameError p bytes => exact h.next_of_clocks (execFrameError_clocks p bytes s)
  | unknownCommand p code seq params =>
    refine ⟨_, rfl, ?_⟩
    split
    · exact takeCommand_clocksSound_of_clocks (fun _ => rfl) h
    · exact h
  | frameDiscarded p bytes => exact h.next_of_clocks (execFrameDiscarded_clocks p bytes s)
  | portReset p => exact h.next_of_clocks (execPortReset_clocks p s)
  | portResetRelease p => exact h.next_of_clocks (execPortResetRelease_clocks p s)
  | deviceReset => exact ⟨_, rfl, by simp [ClocksSound, IntSound, FxSound, State.reset]⟩
  | lockComplete d => exact execLockComplete_clocksSound d h
  | clockFound r => exact execClockFound_clocksSound r h
  | clockLost => exact execClockLost_clocksSound h
  | holdoverExpired => exact execHoldoverExpired_clocksSound h
  | frameBoundary d rx order =>
    refine ⟨_, rfl, ?_⟩
    split
    · exact (countFrame_clocksSound d h).of_clocks (boundary_clocks ..)
    · exact h
  | routeTableDomainStop d order =>
    exact ⟨_, rfl, h.of_clocks (takeRouteReport_clocks (fun r u => suspend_same _ _ r u) ..)⟩
  | routeTableDomainStart d order => exact ⟨_, rfl, h.of_clocks (takeRouteReport_clocks (resume_same _) ..)⟩
  | laneDomainStop d order => exact h.next_of_clocks (execLaneDomainStop_clocks d order s)
  | laneDomainStart d => exact h.next_of_clocks (execLaneDomainStart_clocks d s)
  | sourcesDown lane order =>
    exact ⟨_, rfl, h.of_clocks (takeRouteReport_clocks (fun r u => suspend_same _ _ r u) ..)⟩
  | sourcesUp lane order => exact ⟨_, rfl, h.of_clocks (takeRouteReport_clocks (resume_same _) ..)⟩
  | grant t => exact h.next_of_clocks (execGrant_clocks t s)
  | waitTimeout id => exact h.next_of_clocks (execWaitTimeout_clocks id s)
  | commandCompletes p => exact h.next_of_clocks (execCommandCompletes_clocks p s)
  | resetRelease => exact ⟨_, rfl, h.of_clocks rfl⟩

theorem step_clocksSound (h : ClocksSound s) : ∃ t, step s = .next t ∧ ClocksSound t := by
  unfold step
  split
  · exact ⟨_, rfl, tick_clocksSound h⟩
  · next c rest _ => exact exec_clocksSound (s := { s with pending := rest }) c (h.of_clocks rfl)

/-- Settles O11, by one lemma for each command and for a period of XREF. -/
theorem clocksSoundKept : Obligations.ClocksSoundKept := by
  intro s t h hstep
  obtain ⟨u, hu, hsound⟩ := step_clocksSound h
  obtain rfl : u = t := Host.Outcome.next.inj (hu.symm.trans hstep)
  exact hsound

end Sys2Proof.Machine
end

section
/-! The happenings of chapter 4 one by one: a lock that completes, the word clock found and lost, the holdover that expires,
and SET_RATE. -/

namespace Sys2Proof.Machine

variable {s t : State} {d : Domain}

/-! ### LOCK_COMPLETE (R72, R75) -/

/-- A lock is in progress exactly in LOCKING. -/
theorem lockedState_eq_none (h : s.domainState d ≠ .locking) : lockedState s d = none := by
  cases d with
  | fa => cases hst : s.fa.state <;> simp_all [State.domainState, lockedState]
  | fb => cases hst : s.fb.state <;> simp_all [State.domainState, lockedState]
  | fx => cases hst : s.fx.state <;> simp_all [State.domainState, lockedState]

theorem execLockComplete_of_none (hl : lockedState s d = none) : execLockComplete d s = .next s := by
  simp [execLockComplete, hl]

/-- The lock that completes is reported as a start of the domain, with DOMAIN_STATE for every open port (R69, R82). -/
theorem execLockComplete_of_some (hr : s.resetHeld = false) (hl : lockedState s d = some t) :
    execLockComplete d s = .next ((t.reportStart d).post [t.domainEvent d]) := by
  simp only [execLockComplete, hr, hl, Bool.false_eq_true, if_false]
  cases d <;> rfl

/-- Settles O34, by the state of each domain. -/
theorem lockCompleteStartsDomain : Obligations.LockCompleteStartsDomain := by
  intro s hr
  refine ⟨fun hst => ?_, fun hst => ?_, fun m hst => ?_, fun d hst => ?_⟩
  · exact execLockComplete_of_some hr (by simp only [lockedState, hst])
  · exact execLockComplete_of_some hr (by simp only [lockedState, hst])
  · exact execLockComplete_of_some hr (by simp only [lockedState, hst])
  · exact execLockComplete_of_none (lockedState_eq_none hst)

/-! ### The word clock at FX (R73 to R77, Table 4.3) -/

/-- What the monitor judges and the state FX enters, with no report due any more. -/
def State.hearClock (s : State) (clock : Option Rate) (st : FxState) : State :=
  { s with fx := { s.fx with state := st }, monitor := { clock := clock, reportDue := false } }

/-- DOMAIN_STATE of FX in `st`, with the rate code or the measured rate, for every open port (R82). -/
def State.tellFx (s : State) (st : DomainState) (code : Nat) : State :=
  s.post [{ aud := .everyOpen, ev := .domainState .fx st code }]

theorem rateCode_fx_external (h : s.fx.external = true) : s.rateCode .fx = 6 := by simp [State.rateCode, h]

/-- A clock that comes is taken by the state of FX, with the monitor's judgement changed. -/
theorem execClockFound_absent (r : Rate) (hr : s.resetHeld = false) (hc : s.monitor.clock = none) :
    execClockFound r s = .next (fxClockFound r (s.hearClock (some r) s.fx.state)) := by
  unfold execClockFound
  rw [if_neg (by simp [hr]), hc]
  rfl

/-- The report of an entry into SEEKING is taken at the rate the monitor has judged. -/
theorem execClockFound_due {r : Rate} (hr : s.resetHeld = false) (hm : s.monitor = { clock := some r, reportDue := true })
    (hst : s.fx.state = .seeking) : execClockFound r s = .next (fxClockFound r s) := by
  simp [execClockFound, hr, hm, hst]

theorem execClockFound_not_due {r r0 : Rate} (hc : s.monitor.clock = some r0)
    (hdue : s.monitor.reportDue = false ∨ r ≠ r0 ∨ s.fx.state ≠ .seeking) : execClockFound r s = .next s := by
  have hnot : ¬(s.monitor.reportDue = true ∧ r = r0 ∧ s.fx.state = .seeking) := by
    rintro ⟨h1, h2, h3⟩
    rcases hdue with h | h | h
    · simp [h] at h1
    · exact h h2
    · exact h h3
  simp only [execClockFound, hc, hnot, if_false, ite_self]

theorem fxClockFound_off (r : Rate) (hst : s.fx.state = .off) : fxClockFound r s = s := by
  simp only [fxClockFound, hst]

theorem fxClockFound_seeking (r : Rate) (hst : s.fx.state = .seeking) :
    fxClockFound r s = (s.leaveSeeking (.locking r)).tellFx .locking (Rate.code r) := by
  simp only [fxClockFound, hst]; rfl

/-- R77: the clock back at the measured rate ends the holdover in LOCKED, at another rate in LOCKING with a stop. -/
theorem fxClockFound_holdover (r : Rate) {m : Rate} {left : Nat} (hst : s.fx.state = .holdover m left) :
    fxClockFound r s =
      if r = m then (s.setFx (.locked r)).tellFx .locked (Rate.code r)
      else ((s.setFx (.locking r)).reportStop .fx).tellFx .locking (Rate.code r) := by
  simp only [fxClockFound, hst]
  split
  · next hr => subst hr; rfl
  · rfl

theorem execClockLost_absent (hc : s.monitor.clock = none) : execClockLost s = .next s := by
  simp [execClockLost, hc]

/-- A clock that goes is taken by the state of FX (Table 4.3). -/
theorem execClockLost_present (hr : s.resetHeld = false) (hc : s.monitor.clock ≠ none) :
    execClockLost s = .next
      (match s.fx.state with
        | .locking _ => (s.hearClock none .seeking).tellFx .seeking (s.rateCode .fx)
        | .locked m => (s.hearClock none (.holdover m (msToXref holdoverMs))).tellFx .holdover (Rate.code m)
        | st => s.hearClock none st) := by
  unfold execClockLost
  rw [if_neg (by simp [hr, hc])]
  dsimp only
  cases hst : s.fx.state with
  | locking m | locked m => rfl
  | off | seeking | holdover m left => simp [State.hearClock, ← hst]

/-- R77: with no time left FX goes to SEEKING and stops. -/
theorem execHoldoverExpired_over {m : Rate} (hst : s.fx.state = .holdover m 0) :
    execHoldoverExpired s = .next ((s.enterSeeking.reportStop .fx).tellFx .seeking (s.rateCode .fx)) := by
  simp only [execHoldoverExpired, hst, FxState.holdoverOver]; rfl

theorem execHoldoverExpired_not_over (h : ∀ m, s.fx.state ≠ .holdover m 0) : execHoldoverExpired s = .next s := by
  have hnot : s.fx.state.holdoverOver = false := by
    cases hst : s.fx.state with
    | holdover m left =>
      have hleft : left ≠ 0 := fun h0 => h m (h0 ▸ hst)
      simpa [FxState.holdoverOver] using hleft
    | off | seeking | locking m | locked m => rfl
  simp [execHoldoverExpired, hnot]

/-- Settles O35, by the state of FX. -/
theorem wordClockMovesFx : Obligations.WordClockMovesFx := by
  intro s hr
  refine ⟨fun r hc => ⟨fun hst => ?_, fun hst => ?_, fun m n hst => ?_⟩, fun r hm hst => ?_,
    fun hc => ⟨fun hst => ?_, fun m hst hext => ?_, fun m hst => ?_⟩, fun r r0 hc hdue => execClockFound_not_due hc hdue,
    execClockLost_absent, fun m hst hc hext => ?_, execHoldoverExpired_not_over⟩
  · exact (execClockFound_absent r hr hc).trans (by rw [hst, fxClockFound_off r rfl]; rfl)
  · exact (execClockFound_absent r hr hc).trans (by rw [hst, fxClockFound_seeking r rfl]; rfl)
  · exact (execClockFound_absent r hr hc).trans (by rw [hst, fxClockFound_holdover r rfl]; rfl)
  · refine (execClockFound_due hr hm hst).trans ?_
    rw [fxClockFound_seeking r hst]
    simp only [State.leaveSeeking, hm]; rfl
  · refine (execClockLost_present hr hc).trans ?_
    rcases hst with hst | hst <;> rw [hst] <;> rfl
  · refine (execClockLost_present hr hc).trans ?_
    rw [hst, rateCode_fx_external hext]; rfl
  · refine (execClockLost_present hr hc).trans ?_
    rw [hst]; rfl
  · refine (execHoldoverExpired_over hst).trans ?_
    rw [rateCode_fx_external hext]
    simp only [State.enterSeeking, State.setFx, hc]; rfl

end Sys2Proof.Machine
end

section
/-! SET_RATE on a port that serves a session: refused, or accepted with the domain of Tables 4.2 and 4.3. -/

namespace Sys2Proof.Machine

variable {s : State} {p : Port}

/-- A frame of SET_RATE with its three parameters is judged by the checks of R78. -/
theorem exec_setRate (h : s.serving p = true) (seq db cb fb : Byte) :
    exec (.setRate p seq [db, cb, fb]) s =
      .next (((setRate db cb fb s).st.post (setRate db cb fb s).evs).replied p seq (setRate db cb fb s).result
        (setRate db cb fb s).payload 7) :=
  congrArg Host.Outcome.next (takeCommand_serving h seq [db, cb, fb] true (setRate db cb fb))

theorem exec_setRate_refused (h : s.serving p = true) (seq : Byte) {db cb fb : Byte} {res : Result}
    (hrefuse : setRate db cb fb s = refuse res s) :
    exec (.setRate p seq [db, cb, fb]) s = .next (s.replied p seq res [] 7) := by
  rw [exec_setRate h, hrefuse]; simp

/-- The response and the events of an accepted SET_RATE, by the state that the domain enters and the rate code that
DOMAIN_STATE carries (R79, R82, R83). -/
theorem exec_setRate_accepted (h : s.serving p = true) (seq : Byte) {db cb fb : Byte} {d : Domain} {st : DomainState}
    {evCode : Nat} (hd : domain? db = some d) (hgood : setRateBad d cb.toNat fb.toNat = false)
    (hfree : bitOf fb 0 = true ∨ s.holderCount d = 0) (hst : (s.withRate d cb.toNat).domainState d = st)
    (hcode : (s.withRate d cb.toNat).eventRateCode d = evCode) :
    exec (.setRate p seq [db, cb, fb]) s =
      .next (((s.rateSet d cb.toNat).post
          [{ aud := .everyOpen, ev := .rateChanged d cb.toNat }, { aud := .everyOpen, ev := .domainState d st evCode }]).replied
        p seq .ok [db, cb, byteOf st.code, byteOf (if s.running d then s.holderCount d else 0)] 7) := by
  have hst' : (s.rateSet d cb.toNat).domainState d = st := by
    rw [← hst]; unfold State.rateSet; split <;> cases d <;> rfl
  have hcode' : (s.rateSet d cb.toNat).eventRateCode d = evCode := by
    rw [← hcode]; unfold State.rateSet; split <;> cases d <;> rfl
  rw [exec_setRate h, setRate_accepted hd hgood hfree]
  simp only [accept_st, accept_evs, accept_result, accept_payload, State.domainEvent, hst', hcode']

/-! ### The domain under its new rate code -/

theorem byte_toNat_eq_zero_iff (b : Byte) : b.toNat = 0 ↔ b = 0#8 := by
  rw [BitVec.toNat_eq]; rfl

/-- FA or FB takes a rate code of Table 0.5: OFF at 0, and LOCKING at any other (Table 4.2). -/
theorem withCode_eq (x : IntDomain) (cb : Byte) :
    x.withCode cb.toNat =
      { x with rateCode := Rate.ofCode? cb.toNat, state := if cb = 0#8 then .off else .locking } := by
  simp only [IntDomain.withCode, byte_toNat_eq_zero_iff]

/-- A rate is reported by the code it has in Table 0.5. -/
theorem rateCodeOf_ofCode? {code : Nat} (h : code ≤ 5) : rateCodeOf (Rate.ofCode? code) = code := by
  match code, h with
  | 0, _ | 1, _ | 2, _ | 3, _ | 4, _ | 5, _ => rfl

theorem withRate_fa_domainState (s : State) (cb : Byte) :
    (s.withRate .fa cb.toNat).domainState .fa = if cb = 0#8 then .off else .locking := by
  by_cases h : cb = 0#8
  · subst h; rfl
  · simp [State.withRate, State.domainState, withCode_eq, h]

theorem withRate_fb_domainState (s : State) (cb : Byte) :
    (s.withRate .fb cb.toNat).domainState .fb = if cb = 0#8 then .off else .locking := by
  by_cases h : cb = 0#8
  · subst h; rfl
  · simp [State.withRate, State.domainState, withCode_eq, h]

/-! ### The values SET_RATE takes (R78) -/

/-- With FORCE, or with no flag on a domain without holders, the flags pass. -/
theorem setRate_flags_allowed {fb : Byte} {n : Nat} (h : fb = 1#8 ∨ (fb = 0#8 ∧ n = 0)) :
    fb.toNat ≤ 1 ∧ (bitOf fb 0 = true ∨ n = 0) := by
  rcases h with rfl | ⟨rfl, hn⟩
  · exact ⟨by decide, .inl rfl⟩
  · exact ⟨by decide, .inr hn⟩

/-- R78 for FA and FB. -/
theorem setRateBad_int {d : Domain} (hd : d ≠ .fx) (code flags : Nat) :
    setRateBad d code flags = false ↔ flags ≤ 1 ∧ code ≤ 5 := by
  cases d <;> simp [setRateBad] at hd ⊢

/-- R78 for FX. -/
theorem setRateBad_fx (code flags : Nat) :
    setRateBad .fx code flags = false ↔ flags ≤ 1 ∧ (code = 0 ∨ code = 6) := by
  simp [setRateBad]; omega

theorem domain?_eq_none {db : Byte} (h : 2 < db.toNat) : domain? db = none := by
  match hn : db.toNat, h with
  | n + 3, _ => simp [domain?, hn]

theorem setRate_bad {db cb fb : Byte} {d : Domain} (hd : domain? db = some d)
    (hbad : setRateBad d cb.toNat fb.toNat = true) : setRate db cb fb s = refuse .badArgument s := by
  simp [setRate, hd, hbad]

/-- Without FORCE the holders of a domain keep its rate code (R78). -/
theorem setRate_busy {db cb : Byte} {d : Domain} (hd : domain? db = some d)
    (hgood : setRateBad d cb.toNat 0 = false) (hholders : s.holderCount d ≠ 0) :
    setRate db cb 0#8 s = refuse .domainBusy s := by
  simp [setRate, hd, hgood, hholders, bitOf]

/-- Settles O33, by the domain and the code. -/
theorem setRateMovesDomain : Obligations.SetRateMovesDomain := by
  intro s p seq cb fb h stops answer allowed badCode
  have hbad (d : Domain) : setRateBad d cb.toNat fb.toNat = true ↔ 1 < fb.toNat ∨ badCode d := by
    rw [← Bool.not_eq_false]
    cases d with
    | fa | fb => rw [setRateBad_int (by decide)]; simp only [badCode]; omega
    | fx =>
      have h6 : cb = 6#8 ↔ cb.toNat = 6 := BitVec.toNat_eq
      rw [setRateBad_fx]
      simp only [badCode, ne_eq, ← byte_toNat_eq_zero_iff, h6]
      omega
  refine ⟨fun hallow hcode => ?_, fun hallow hcode => ?_, fun hallow hcode => ?_, fun hallow hcode => ?_,
    fun db hdb => ?_, fun db d hd => ⟨fun hrefused => ?_, fun hflags hgood hholders => ?_⟩⟩
  · obtain ⟨hflags, hfree⟩ := setRate_flags_allowed hallow
    refine (exec_setRate_accepted h seq rfl ((setRateBad_int (by decide) _ _).mpr ⟨hflags, hcode⟩) hfree
      (withRate_fa_domainState s cb) (rateCodeOf_ofCode? hcode)).trans ?_
    simp only [answer, stops, State.rateSet, State.withRate, withCode_eq]; rfl
  · obtain ⟨hflags, hfree⟩ := setRate_flags_allowed hallow
    refine (exec_setRate_accepted h seq rfl ((setRateBad_int (by decide) _ _).mpr ⟨hflags, hcode⟩) hfree
      (withRate_fb_domainState s cb) (rateCodeOf_ofCode? hcode)).trans ?_
    simp only [answer, stops, State.rateSet, State.withRate, withCode_eq]; rfl
  · subst hcode
    obtain ⟨hflags, hfree⟩ := setRate_flags_allowed hallow
    exact exec_setRate_accepted h seq rfl ((setRateBad_fx _ _).mpr ⟨hflags, .inl rfl⟩) hfree rfl rfl
  · subst hcode
    obtain ⟨hflags, hfree⟩ := setRate_flags_allowed hallow
    exact exec_setRate_accepted h seq rfl ((setRateBad_fx _ _).mpr ⟨hflags, .inr rfl⟩) hfree rfl rfl
  · exact exec_setRate_refused h seq (by simp only [setRate, domain?_eq_none hdb])
  · exact exec_setRate_refused h seq (setRate_bad hd ((hbad d).mpr hrefused))
  · subst hflags
    have hpass : setRateBad d cb.toNat 0 = false := by
      rw [← Bool.not_eq_true]; exact fun hb => ((hbad d).mp hb).elim (by decide) hgood
    exact exec_setRate_refused h seq (setRate_busy hd hpass hholders)

end Sys2Proof.Machine
end

section
/-! The reports a domain sends to the Lane Units: the oldest about a domain is taken, and its lanes stop or start. -/

namespace Sys2Proof.Machine

variable {s : State} {d : Domain}

/-! ### The oldest report about one thing (log entry 6) -/

theorem takeReport_of_oldest [DecidableEq α] {same : α → Bool} {r : α} {xs : List α}
    (h : (xs.filter same).head? = some r) : takeReport same r xs = some (xs.erase r) := by
  have hr : same r = true := (List.mem_filter.mp (List.mem_of_mem_head? h)).2
  induction xs with
  | nil => simp at h
  | cons x xs ih =>
    by_cases hx : same x = true
    · obtain rfl : x = r := by simpa [hx] using h
      simp [takeReport, hx]
    · have hne : x ≠ r := fun he => hx (he ▸ hr)
      rw [List.filter_cons_of_neg hx] at h
      simp [takeReport, hx, ih h, List.erase_cons_tail, hne]

theorem takeReport_of_not_oldest [DecidableEq α] {same : α → Bool} {r : α} {xs : List α}
    (h : (xs.filter same).head? ≠ some r) : takeReport same r xs = none := by
  induction xs with
  | nil => rfl
  | cons x xs ih =>
    by_cases hx : same x = true
    · have hne : x ≠ r := by simpa [hx] using h
      simp [takeReport, hx, hne]
    · rw [List.filter_cons_of_neg hx] at h
      simp [takeReport, hx, ih h]

/-! ### Lists over the lanes, and events for every open port -/

theorem flatMap_ite_singleton (p : α → Bool) (f : α → β) (xs : List α) :
    xs.flatMap (fun x => if p x then [f x] else []) = (xs.filter p).map f := by
  induction xs with
  | nil => rfl
  | cons x xs ih => by_cases hx : p x = true <;> simp [hx, ih]

theorem eventsFor_perm {es es' : List Emit} (p : Port) (h : es.Perm es') : (eventsFor p es).Perm (eventsFor p es') :=
  (h.filter _).map _

theorem eventsFor_everyOpen (p : Port) (f : α → Event) (xs : List α) :
    eventsFor p (xs.map fun x => { aud := .everyOpen, ev := f x }) = xs.map f := by
  have hall : ∀ e ∈ xs.map fun x => ({ aud := .everyOpen, ev := f x } : Emit), e.aud.has p = true := by
    intro e he
    obtain ⟨x, -, rfl⟩ := List.mem_map.mp he
    rfl
  exact (congrArg (List.map Emit.ev) (List.filter_eq_self.mpr hall)).trans List.map_map

/-! ### Input lanes that move (R95) -/

/-- What an input lane reports of its sources when it leaves or enters RUNNING. -/
def sourceReports (i : Idx) (before after : LaneState) : List RouteReport :=
  if before = .running ∧ after ≠ .running then [.sourcesDown i]
  else if before ≠ .running ∧ after = .running then [.sourcesUp i]
  else []

theorem reportSources_eq (s : State) (i : Idx) (before after : LaneState) :
    s.reportSources i before after = { s with routeReports := s.routeReports ++ sourceReports i before after } := by
  unfold State.reportSources sourceReports
  split
  · rfl
  · split
    · rfl
    · simp

theorem moveInLanes_eq (s : State) (after : Quad Lane) :
    s.moveInLanes after =
      { s with
        inLanes := after
        routeReports := s.routeReports ++
          Idx.all.flatMap fun i => sourceReports i (s.inLanes.get i).state (after.get i).state } := by
  simp [State.moveInLanes, reportSources_eq, Idx.all]

/-! ### A stop at the lanes (R94, R96) -/

/-- A lane stopped: an enabled lane of the domain goes to SEEKING or holds its wires low; any other is kept. -/
theorem laneStopped_input (d : Domain) (x : Lane) :
    laneStopped true d x =
      if laneJudges d x then { x with state := .seeking, goodRun := 0, badRun := 0, syncPhase := none } else x := rfl

theorem laneStopped_output (d : Domain) (x : Lane) :
    laneStopped false d x = if laneJudges d x then { x with wires := .low } else x := rfl

theorem laneJudges_spec {x : Lane} (h : laneJudges d x = true) : x.enabled = true ∧ x.binding = d := by
  simpa [laneJudges] using h

/-- Only a RUNNING lane of the domain has sources that go down with it. -/
theorem sourceReports_laneStopped (i : Idx) (d : Domain) (x : Lane) :
    sourceReports i x.state (laneStopped true d x).state =
      if laneJudges d x && x.state == .running then [.sourcesDown i] else [] := by
  rw [laneStopped_input]
  by_cases h : laneJudges d x = true
  · by_cases hr : x.state = .running <;> simp [sourceReports, h, hr]
  · simp [sourceReports, h]

/-- LANE_STATE is made of a lane of the domain in RUNNING or FAULT: an enabled lane is not DISABLED (Table 5.2). -/
theorem laneMoveEvents_laneStopped (i : Idx) (d : Domain) {x : Lane} (hx : InLaneSound x) :
    laneMoveEvents i x (laneStopped true d x) =
      if laneJudges d x && (x.state == .running || x.state == .fault) then
        [{ aud := .everyOpen, ev := .laneState (.input i) d .seeking }]
      else [] := by
  rw [laneStopped_input]
  by_cases h : laneJudges d x = true
  · obtain ⟨henabled, hbinding⟩ := laneJudges_spec h
    obtain ⟨hdisabled, -⟩ := hx
    cases hst : x.state with
    | disabled => simp [hst, henabled] at hdisabled
    | seeking | running | fault => simp [laneMoveEvents, h, hst, hbinding]
  · simp [laneMoveEvents, h]

/-- The part after its lanes have taken a stop of a domain, the events apart. -/
def State.lanesStopped (s : State) (d : Domain) : State :=
  { s with
    laneReports := s.laneReports.erase (.domainStop d)
    inLanes := .tab fun i => laneStopped true d (s.inLanes.get i)
    outLanes := .tab fun i => laneStopped false d (s.outLanes.get i)
    routeReports := s.routeReports ++
      (Idx.all.filter fun i => laneJudges d (s.inLanes.get i) && (s.inLanes.get i).state == .running).map .sourcesDown }

/-- The events of the lanes that take a stop, a run of each lane. -/
def State.laneStopRuns (s : State) (d : Domain) : List (List Emit) :=
  Idx.all.map fun i => laneMoveEvents i (s.inLanes.get i) (laneStopped true d (s.inLanes.get i))

theorem execLaneDomainStop_oldest (order : Picks)
    (h : (s.laneReports.filter (LaneReport.aboutDomain d)).head? = some (.domainStop d)) :
    execLaneDomainStop d order s = .next ((s.lanesStopped d).postRuns order (s.laneStopRuns d)) := by
  simp only [execLaneDomainStop, takeReport_of_oldest h, moveInLanes_eq, Quad.get_tab, sourceReports_laneStopped,
    flatMap_ite_singleton]
  rfl

theorem execLaneDomainStop_not_oldest (order : Picks)
    (h : (s.laneReports.filter (LaneReport.aboutDomain d)).head? ≠ some (.domainStop d)) :
    execLaneDomainStop d order s = .next s := by
  simp only [execLaneDomainStop, takeReport_of_not_oldest h]

/-- Every open port is told of each lane of the domain that was in RUNNING or FAULT, however the picks choose. -/
theorem eventsFor_laneStopRuns (hs : LanesSound s) (d : Domain) (q : Port) (ks : List Nat) :
    (eventsFor q (interleave ks (s.laneStopRuns d))).Perm
      ((Idx.all.filter fun i => laneJudges d (s.inLanes.get i) &&
        ((s.inLanes.get i).state == .running || (s.inLanes.get i).state == .fault)).map fun i =>
          .laneState (.input i) d .seeking) := by
  obtain ⟨hin, -⟩ := hs
  have hruns : s.laneStopRuns d = Idx.all.map fun i =>
      if laneJudges d (s.inLanes.get i) && ((s.inLanes.get i).state == .running || (s.inLanes.get i).state == .fault) then
        [{ aud := .everyOpen, ev := .laneState (.input i) d .seeking }]
      else [] :=
    List.map_congr_left fun i hi => laneMoveEvents_laneStopped i d (hin i hi)
  refine (eventsFor_perm q (interleave_perm ks _)).trans ?_
  rw [hruns, ← List.flatMap_def, flatMap_ite_singleton, eventsFor_everyOpen]

/-! ### A start at the lanes (R94) -/

theorem execLaneDomainStart_oldest
    (h : (s.laneReports.filter (LaneReport.aboutDomain d)).head? = some (.domainStart d)) :
    execLaneDomainStart d s = .next
      { s with
        laneReports := s.laneReports.erase (.domainStart d)
        inLanes := .tab fun i => laneStarted d (s.inLanes.get i) } := by
  simp only [execLaneDomainStart, takeReport_of_oldest h]

theorem execLaneDomainStart_not_oldest
    (h : (s.laneReports.filter (LaneReport.aboutDomain d)).head? ≠ some (.domainStart d)) :
    execLaneDomainStart d s = .next s := by
  simp only [execLaneDomainStart, takeReport_of_not_oldest h]

/-- Settles O46, by the oldest report about the domain and the lanes it reaches. -/
theorem lanesTakeDomainReports : Obligations.LanesTakeDomainReports := by
  intro s d order hs mine oldest
  refine ⟨fun h => ⟨_, execLaneDomainStop_oldest order h, ?_⟩, execLaneDomainStop_not_oldest order,
    execLaneDomainStart_oldest, execLaneDomainStart_not_oldest⟩
  rw [State.postRuns_eq]
  refine ⟨fun i => ?_, fun i => ?_, fun i w n hb hmine => ?_, rfl, rfl, rfl, fun q => ?_⟩
  · exact (Quad.get_tab _ i).trans (laneStopped_input d _)
  · exact (Quad.get_tab _ i).trans (laneStopped_output d _)
  · have hlow : ((s.lanesStopped d).outLanes.get i).wires = .low := by
      have hjudges : laneJudges d (s.outLanes.get i) = true := hmine
      simp [State.lanesStopped, laneStopped_output, hjudges]
    simp [hlow]
  · refine ⟨_, ?_, eventsFor_laneStopRuns hs d q (order.get q)⟩
    rw [← State.postRuns_eq]
    exact State.queue_postRuns_eq_queueAfter ..

end Sys2Proof.Machine
end

section
/-! What the work at one route reaches: its own record, its own sink and source, the stores it uses and its owner's count.
So a frame boundary, which works at the routes of its domain, reaches nothing of another. -/

namespace Sys2Proof.Machine

/-! ### The work at one route -/

/-- Two records of one route between the same endpoints and in the same domain. -/
structure SameEnds (a b : Route) : Prop where
  id     : b.id = a.id
  source : b.source = a.source
  sink   : b.sink = a.sink
  domain : b.domain = a.domain

theorem SameEnds.refl (r : Route) : SameEnds r r := ⟨rfl, rfl, rfl, rfl⟩

theorem SameEnds.trans {a b c : Route} (h : SameEnds a b) (h' : SameEnds b c) : SameEnds a c :=
  ⟨h'.id.trans h.id, h'.source.trans h.source, h'.sink.trans h.sink, h'.domain.trans h.domain⟩

theorem SameEnds.usesStore {a b : Route} (h : SameEnds a b) (n : Idx) : usesStore b n = usesStore a n := by
  simp only [Machine.usesStore, h.source, h.sink]

/-- From `s` to `t` a route's record changed or left, and with it at most the stores it uses; no other record, no session
but in its count, and no tag changed. -/
structure ReachesOnly (r : Route) (s t : State) : Prop where
  routes   : ∀ x ∈ t.routes, x ∈ s.routes ∨ SameEnds r x
  others   : ∀ id, id ≠ r.id → t.route? id = s.route? id
  stores   : ∀ n, usesStore r n = false → t.store n = s.store n
  sessions : ∀ q, (t.session q).isOpen = (s.session q).isOpen ∧ (t.session q).epoch = (s.session q).epoch
  tags     : ∀ e, t.tagOf e = s.tagOf e

namespace ReachesOnly

variable {r r' : Route} {s t u : State}

theorem trans (h : ReachesOnly r s t) (h' : ReachesOnly r t u) : ReachesOnly r s u where
  routes x hx := (h'.routes x hx).elim (h.routes x) .inr
  others id hid := (h'.others id hid).trans (h.others id hid)
  stores n hn := (h'.stores n hn).trans (h.stores n hn)
  sessions q := ⟨(h'.sessions q).1.trans (h.sessions q).1, (h'.sessions q).2.trans (h.sessions q).2⟩
  tags e := (h'.tags e).trans (h.tags e)

/-- The reach is told by the ends of the route alone. -/
theorem of_sameEnds (h : ReachesOnly r' s t) (he : SameEnds r r') : ReachesOnly r s t where
  routes x hx := (h.routes x hx).imp_right he.trans
  others id hid := h.others id (he.id ▸ hid)
  stores n hn := h.stores n ((he.usesStore n).trans hn)
  sessions := h.sessions
  tags := h.tags

theorem setRoute (s : State) (he : SameEnds r r') : ReachesOnly r s (s.setRoute r') where
  routes x hx := (mem_setRoute hx).elim (fun h => .inr (h ▸ he)) fun h => .inl h.1
  others id hid := by rw [State.route?_setRoute, if_neg (he.id ▸ hid)]
  stores _ _ := rfl
  sessions _ := ⟨rfl, rfl⟩
  tags e := by cases e <;> rfl

end ReachesOnly

theorem freeSink_tagOf (s : State) (e : Source) (t : Sink) (x : Endpoint) : (s.freeSink e t).tagOf x = s.tagOf x := by
  cases x with
  | source f => simp only [State.tagOf, freeSink_sourceEntry]; split <;> simp_all
  | sink u => simp only [State.tagOf, freeSink_sinkEntry]; split <;> simp_all

theorem freeSink_reachesOnly (s : State) (r : Route) (e : Source) (t : Sink) : ReachesOnly r s (s.freeSink e t) where
  routes _ hx := .inl hx
  others _ _ := rfl
  stores _ _ := rfl
  sessions _ := ⟨rfl, rfl⟩
  tags := freeSink_tagOf s e t

theorem unbindStore_unused (s : State) {r : Route} {m : Idx} (h : usesStore r m = false) (n : Idx) :
    (s.unbindStore r n).store m = s.store m := by
  rw [unbindStore_store, if_neg]
  rintro ⟨rfl, hu, -⟩
  simp [h] at hu

theorem eraseRoute_unused (s : State) {r : Route} {m : Idx} (h : usesStore r m = false) :
    (s.eraseRoute r).store m = s.store m := by
  unfold State.eraseRoute
  simp only [unbindStore_unused _ h]
  cases ho : r.owner <;> rfl

theorem eraseRoute_reachesOnly (s : State) (r : Route) : ReachesOnly r s (s.eraseRoute r) where
  routes x hx := .inl (mem_eraseRoute.mp hx).1
  others id hid := by
    have hroutes : (s.eraseRoute r).route? id = (s.dropRoute r.id).route? id := by simp [State.route?]
    rw [hroutes, State.route?_dropRoute, if_neg hid]
  stores _ hn := eraseRoute_unused s hn
  sessions q := by rw [eraseRoute_session]; split <;> exact ⟨rfl, rfl⟩
  tags e := by obtain ⟨q, h⟩ := eraseRoute_eq s r; rw [h]; cases e <;> rfl

theorem releaseHolder_reachesOnly (c : ReleaseCause) (tell : Bool) (r : Route) (s : State) :
    ReachesOnly r s (releaseHolder c tell r s).st :=
  (freeSink_reachesOnly s r r.source r.sink).trans (eraseRoute_reachesOnly _ r)

theorem setClaim_reachesOnly (s : State) (r : Route) (t : Sink) (ids : List Nat) : ReachesOnly r s (s.setClaim t ids) where
  routes _ hx := .inl hx
  others _ _ := rfl
  stores _ _ := rfl
  sessions _ := ⟨rfl, rfl⟩
  tags e := by cases e <;> rfl

theorem requeue_reachesOnly (r : Route) (s : State) : ReachesOnly r s (requeue r s).st :=
  ((freeSink_reachesOnly s r r.source r.sink).trans (setClaim_reachesOnly ..)).trans
    (ReachesOnly.setRoute _ ⟨rfl, rfl, rfl, rfl⟩)

theorem carryOut_reachesOnly (o : Pending) (r : Route) (s : State) : ReachesOnly r s (carryOut o r s).st := by
  unfold carryOut
  split
  · exact releaseHolder_reachesOnly ..
  · split
    · exact requeue_reachesOnly ..
    · exact releaseHolder_reachesOnly ..

/-! ### The step of a route at a boundary (Table 3.2) -/

theorem advance_sameEnds (aim : Nat) (r : Route) : SameEnds r (advance aim r) := by
  unfold advance
  split
  · exact ⟨rfl, rfl, rfl, rfl⟩
  · split <;> exact ⟨rfl, rfl, rfl, rfl⟩

theorem moveToward_sameEnds (aim : Nat) (r : Route) : SameEnds r (moveToward aim r) := by
  unfold moveToward
  split
  · exact ⟨rfl, rfl, rfl, rfl⟩
  · exact advance_sameEnds aim r

theorem stepRoute_sameEnds (r : Route) : SameEnds r (stepRoute r).1 := by
  have hmove := moveToward_sameEnds r.target r
  cases hst : r.state with
  | waiting left | suspended cs => simp only [stepRoute, hst]; exact .refl r
  | armed => simp only [stepRoute, hst]; split <;> exact ⟨rfl, rfl, rfl, rfl⟩
  | rampUp =>
    simp only [stepRoute, hst]
    split
    · exact ⟨hmove.id, hmove.source, hmove.sink, hmove.domain⟩
    · exact hmove
  | live => simp only [stepRoute, hst]; split <;> exact hmove
  | rampDown o =>
    simp only [stepRoute, hst]
    split
    · exact .refl r
    · split <;> exact advance_sameEnds 0 r

theorem boundaryAt_reachesOnly (r : Route) (s : State) : ReachesOnly r s (boundaryAt r s).st := by
  have hstep := ReachesOnly.setRoute s (stepRoute_sameEnds r)
  unfold boundaryAt
  dsimp only
  split
  · exact hstep
  · exact hstep
  · exact hstep
  · exact hstep
  · split
    · exact hstep.trans ((carryOut_reachesOnly ..).of_sameEnds (stepRoute_sameEnds r))
    · exact hstep

end Sys2Proof.Machine
end

section
/-! A frame boundary of a domain: what it counts, and what it leaves of the other domains (R68, R70). -/

namespace Sys2Proof.Machine

variable {s t u : State} {d : Domain} {rx : Quad LaneRx}

theorem mem_allIdx (n : Idx) : n ∈ Idx.all := by cases n <;> decide

/-! ### The clocks as the reports give them -/

theorem domainState_of_clocks (h : t.clocks = s.clocks) (d : Domain) : t.domainState d = s.domainState d := by
  obtain ⟨hfa, hfb, hfx, -⟩ := clocks_eq_iff.mp h
  cases d <;> simp only [State.domainState, hfa, hfb, hfx]

theorem rateCode_of_clocks (h : t.clocks = s.clocks) (d : Domain) : t.rateCode d = s.rateCode d := by
  obtain ⟨hfa, hfb, hfx, -⟩ := clocks_eq_iff.mp h
  cases d <;> simp only [State.rateCode, hfa, hfb, hfx]

theorem frameCount_of_clocks (h : t.clocks = s.clocks) (d : Domain) : t.frameCount d = s.frameCount d := by
  obtain ⟨hfa, hfb, hfx, -⟩ := clocks_eq_iff.mp h
  cases d <;> simp only [State.frameCount, hfa, hfb, hfx]

theorem monitor_of_clocks (h : t.clocks = s.clocks) : t.monitor = s.monitor := by
  obtain ⟨-, -, -, hm⟩ := clocks_eq_iff.mp h
  exact hm

theorem frameCount_countFrame (s : State) (d d' : Domain) :
    (s.countFrame d).frameCount d' = if d' = d then s.frameCount d' + 1 else s.frameCount d' := by
  cases d <;> cases d' <;> rfl

theorem domainState_countFrame (s : State) (d d' : Domain) : (s.countFrame d).domainState d' = s.domainState d' := by
  cases d <;> cases d' <;> rfl

theorem rateCode_countFrame (s : State) (d d' : Domain) : (s.countFrame d).rateCode d' = s.rateCode d' := by
  cases d <;> cases d' <;> rfl

/-! ### The boundary in three parts: before the routes, at the routes, and the channels, wires and write sides after them -/

/-- The part when the routes of the domain take their steps: the frame is counted, the lanes have judged, and the read sides
have delivered. -/
def State.boundaryStart (s : State) (d : Domain) (rx : Quad LaneRx) : State :=
  { (s.countFrame d).moveInLanes (inLanesAfter s d rx) with stores := .tab fun n => ((readSides s d).get n).1 }

/-- The part when the routes of the domain have taken their steps. -/
def State.boundaryRoutes (s : State) (d : Domain) (rx : Quad LaneRx) : State :=
  (forRoutes boundaryAt (s.idsWhere fun r => r.domain == d) (s.boundaryStart d rx)).1

theorem boundary_eq (s : State) (d : Domain) (rx : Quad LaneRx) (order : Picks) :
    ∃ queues, boundary s d rx order =
      { s.boundaryRoutes d rx with
        channels := channelsAfter s d rx
        outLanes := outLanesAfter s d rx
        stores := .tab fun n => ((writeSides s d rx (beforeWrites s d rx).1).get n).1
        queues := queues } :=
  ⟨_, State.postRuns_eq ..⟩

/-- Before the routes step, only the domain's count, the input lanes, their reports and the stores have changed. -/
theorem boundaryStart_eq (s : State) (d : Domain) (rx : Quad LaneRx) :
    ∃ stores reports, s.boundaryStart d rx =
      { s.countFrame d with inLanes := inLanesAfter s d rx, stores := stores, routeReports := reports } := by
  unfold State.boundaryStart
  rw [moveInLanes_eq]
  exact ⟨_, _, rfl⟩

/-- The routes' steps reach no port, no lane and no report to the lanes. -/
theorem boundaryRoutes_kept (s : State) (d : Domain) (rx : Quad LaneRx) :
    (s.boundaryRoutes d rx).ports = s.ports ∧ (s.boundaryRoutes d rx).laneReports = s.laneReports ∧
      (s.boundaryRoutes d rx).inLanes = inLanesAfter s d rx := by
  have hsame : SameButRoutes (s.boundaryStart d rx) (s.boundaryRoutes d rx) := forRoutes_same boundaryAt_same ..
  obtain ⟨stores, reports, hstart⟩ := boundaryStart_eq s d rx
  unfold SameButRoutes at hsame
  rw [hstart] at hsame
  refine ⟨(congrArg State.ports hsame).trans ?_, (congrArg State.laneReports hsame).trans ?_, congrArg State.inLanes hsame⟩
  · cases d <;> rfl
  · cases d <;> rfl

/-! ### The other domains (R68) -/

/-- From `s` to `t` nothing of a domain other than `d` changed: its routes, the stores that are not bound to `d`, the sessions
but in their counts, and the tags; every record of `t` is one of `s` as far as its ends go. -/
structure KeepsOtherDomains (d : Domain) (s t : State) : Prop where
  ends     : ∀ x ∈ t.routes, ∃ y ∈ s.routes, SameEnds y x
  others   : ∀ y ∈ s.routes, y.domain ≠ d → t.route? y.id = some y
  stores   : ∀ n, (s.store n).binding ≠ some d → t.store n = s.store n
  sessions : ∀ q, (t.session q).isOpen = (s.session q).isOpen ∧ (t.session q).epoch = (s.session q).epoch
  tags     : ∀ e, t.tagOf e = s.tagOf e

/-- A store used by a route of the domain is bound to the domain, so work at that route keeps what is of another (R107). -/
theorem KeepsOtherDomains.step (ho : RoutesOrdered s) (hb : StoresBound s) (h : KeepsOtherDomains d s t) {r : Route}
    (hr : r ∈ t.routes) (hd : r.domain = d) (hreach : ReachesOnly r t u) : KeepsOtherDomains d s u := by
  obtain ⟨y, hy, hends⟩ := h.ends r hr
  have hyd : y.domain = d := hends.domain ▸ hd
  refine ⟨fun x hx => ?_, fun z hz hzd => ?_, fun n hn => ?_, fun q => ?_, fun e => (hreach.tags e).trans (h.tags e)⟩
  · rcases hreach.routes x hx with hx | hrx
    · exact h.ends x hx
    · exact ⟨y, hy, hends.trans hrx⟩
  · have hid : z.id ≠ r.id := fun he => hzd (ho.id_inj hz hy (he.trans hends.id) ▸ hyd)
    exact (hreach.others z.id hid).trans (h.others z hz hzd)
  · have hunused : usesStore r n = false := by
      rw [hends.usesStore, ← Bool.not_eq_true]
      intro hu
      obtain ⟨hbound, -⟩ := hb n (mem_allIdx n)
      exact hn (hyd ▸ (hbound y hy hu).1)
    exact (hreach.stores n hunused).trans (h.stores n hn)
  · exact ⟨(hreach.sessions q).1.trans (h.sessions q).1, (hreach.sessions q).2.trans (h.sessions q).2⟩

/-- Work at routes of the domain, one after another, keeps what is of another. -/
theorem forRoutes_keepsOtherDomains (ho : RoutesOrdered s) (hb : StoresBound s) {f : Route → State → Eff}
    (hf : ∀ r u, ReachesOnly r u (f r u).st) (h : KeepsOtherDomains d s t) :
    KeepsOtherDomains d s (forRoutes f (s.idsWhere fun r => r.domain == d) t).1 := by
  have hmine : ∀ id ∈ s.idsWhere fun r => r.domain == d, ∃ z ∈ s.routes, z.id = id ∧ z.domain = d := by
    intro id hid
    obtain ⟨z, hz, hzd, he⟩ := mem_idsWhere.mp hid
    exact ⟨z, hz, he, by simpa using hzd⟩
  refine (forRoutes_induction
    (P := fun ids u => (∀ id ∈ ids, ∃ z ∈ s.routes, z.id = id ∧ z.domain = d) ∧ KeepsOtherDomains d s u)
    (fun id ids u _ hu => ⟨fun i hi => hu.1 i (List.mem_cons_of_mem _ hi), hu.2⟩) ?_ _ t ⟨hmine, h⟩).2
  rintro r ids u hr ⟨hids, hu⟩
  obtain ⟨z, hz, hzid, hzd⟩ := hids r.id (List.mem_cons_self ..)
  obtain ⟨y, hy, hends⟩ := hu.ends r hr
  have hd : r.domain = d := by rw [hends.domain, ← ho.id_inj hz hy (hzid.trans hends.id), hzd]
  exact ⟨fun i hi => hids i (List.mem_cons_of_mem _ hi), hu.step ho hb hr hd (hf r u)⟩

theorem served_eq_false {n : Idx} (h : (s.store n).binding ≠ some d) : served s d n = false := by
  simpa [served] using h

theorem boundaryStart_keepsOtherDomains (ho : RoutesOrdered s) (d : Domain) (rx : Quad LaneRx) :
    KeepsOtherDomains d s (s.boundaryStart d rx) := by
  have hstore (n : Idx) (hn : (s.store n).binding ≠ some d) : (s.boundaryStart d rx).store n = s.store n := by
    simp [State.store, State.boundaryStart, readSides, served_eq_false hn]
  obtain ⟨stores, reports, hstart⟩ := boundaryStart_eq s d rx
  have hroutes : (s.boundaryStart d rx).routes = s.routes := by rw [hstart]; cases d <;> rfl
  refine ⟨fun x hx => ⟨x, hroutes ▸ hx, .refl x⟩, fun y hy _ => ?_, hstore, fun q => ?_, fun e => ?_⟩
  · rw [State.route?, hroutes]; exact State.route?_of_mem ho hy
  · rw [hstart]; cases d <;> exact ⟨rfl, rfl⟩
  · rw [hstart]; cases d <;> cases e <;> rfl

theorem boundaryRoutes_keepsOtherDomains (ho : RoutesOrdered s) (hb : StoresBound s) (d : Domain) (rx : Quad LaneRx) :
    KeepsOtherDomains d s (s.boundaryRoutes d rx) :=
  forRoutes_keepsOtherDomains ho hb boundaryAt_reachesOnly (boundaryStart_keepsOtherDomains ho d rx)

/-! ### Lanes, channels and stores of another domain -/

theorem laneJudges_eq_false {x : Lane} (h : x.enabled = false ∨ x.binding ≠ d) : laneJudges d x = false := by
  rcases h with h | h <;> simp [laneJudges, h]

theorem laneSends_eq_false {l : Idx} (h : (s.outLanes.get l).enabled = false ∨ (s.outLanes.get l).binding ≠ d) :
    laneSends s d l = false :=
  laneJudges_eq_false h

theorem inLanesAfter_other {i : Idx} (h : (s.inLanes.get i).enabled = false ∨ (s.inLanes.get i).binding ≠ d) :
    (inLanesAfter s d rx).get i = s.inLanes.get i := by
  simp [inLanesAfter, laneAtBoundary, laneJudges_eq_false h]

theorem outLanesAfter_other {l : Idx} (h : (s.outLanes.get l).enabled = false ∨ (s.outLanes.get l).binding ≠ d) :
    (outLanesAfter s d rx).get l = s.outLanes.get l := by
  simp [outLanesAfter, laneSends_eq_false h]

theorem channelsAfter_other {l : Idx} (h : (s.outLanes.get l).enabled = false ∨ (s.outLanes.get l).binding ≠ d) :
    (channelsAfter s d rx).get l = s.channels.get l := by
  simp [channelsAfter, laneSends_eq_false h]

theorem writeSides_other {n : Idx} (h : (s.store n).binding ≠ some d) (now : State) :
    ((writeSides s d rx now).get n).1 = now.store n := by
  simp [writeSides, served_eq_false h]

/-- Settles O53, by the three parts of a boundary: before the routes, at the routes of its domain, and after them. -/
theorem boundaryConcernsItsDomain : Obligations.BoundaryConcernsItsDomain := by
  intro s d rx order ho hb
  refine ⟨fun hrun => by simp [exec, execFrameBoundary, hrun], fun hrun => ⟨boundary s d rx order, ?_, ?_⟩⟩
  · simp [exec, execFrameBoundary, hrun]
  have hclocks := boundary_clocks s d rx order
  obtain ⟨hports, hreports, hin⟩ := boundaryRoutes_kept s d rx
  obtain ⟨-, hothers, hstores, hsessions, htags⟩ := boundaryRoutes_keepsOtherDomains ho hb d rx
  refine ⟨fun d' => (frameCount_of_clocks hclocks d').trans (frameCount_countFrame s d d'),
    fun d' => ⟨(domainState_of_clocks hclocks d').trans (domainState_countFrame s d d'),
      (rateCode_of_clocks hclocks d').trans (rateCode_countFrame s d d')⟩, ?_⟩
  have hmonitor : (boundary s d rx order).monitor = s.monitor :=
    (monitor_of_clocks hclocks).trans (by cases d <;> rfl)
  obtain ⟨queues, heq⟩ := boundary_eq s d rx order
  rw [heq] at hmonitor ⊢
  refine ⟨hports, hmonitor, hreports, hsessions, hothers, fun l hl => ?_, fun n hn => ?_, fun l k hl => ?_, fun e => ?_⟩
  · cases l with
    | input i => exact (congrArg (fun q => q.get i) hin).trans (inLanesAfter_other hl)
    | output i => exact outLanesAfter_other hl
  · exact (Quad.get_tab _ n).trans ((writeSides_other hn _).trans (hstores n hn))
  · exact congrArg (fun q => q.get k) (channelsAfter_other hl)
  · exact (by cases e <;> rfl : _ = (s.boundaryRoutes d rx).tagOf e).trans (htags e)

end Sys2Proof.Machine
end

section
/-! SET_TAG on a port that serves a session: the endpoint it names, the characters it takes, and the one tag it writes. -/

namespace Sys2Proof.Machine

variable {s : State} {p : Port}

/-! ### The endpoint and the characters (R86, R87) -/

/-- The wire numbers 0 to 39 name an endpoint, and no others do (Table 0.3). -/
theorem endpoint?_eq_none_iff {n : Nat} : endpoint? n = none ↔ 39 < n := by
  unfold endpoint?
  repeat' split
  case isFalse => exact iff_of_true rfl (by omega)
  all_goals exact iff_of_false (Option.some_ne_none _) (by omega)

/-- The spaces that complete a tag are printable, so the characters given decide (R87, R89). -/
theorem tagPrintable_padTag {chars : List Byte} (h : chars.length ≤ 4) :
    tagPrintable (padTag chars) = true ↔ ∀ c ∈ chars, 0x20 ≤ c.toNat ∧ c.toNat ≤ 0x7E := by
  match chars, h with
  | [], _ | [_], _ | [_, _], _ | [_, _, _], _ | [_, _, _, _], _ => simp [tagPrintable, padTag, Quad.toList]

/-! ### The tag of one endpoint (R89) -/

theorem tagOf_setTagOf (s : State) (e e' : Endpoint) (tag : Tag) :
    (s.setTagOf e tag).tagOf e' = if e' = e then tag else s.tagOf e' := by
  cases e with
  | source x =>
    cases e' with
    | source y => by_cases h : y = x <;> simp [State.setTagOf, State.tagOf, h]
    | sink u => rfl
  | sink t =>
    cases e' with
    | source y => rfl
    | sink u => by_cases h : u = t <;> simp [State.setTagOf, State.tagOf, h]

theorem setTagOf_fanOut (s : State) (e : Endpoint) (tag : Tag) (x : Source) :
    ((s.setTagOf e tag).sourceEntry x).fanOut = (s.sourceEntry x).fanOut := by
  cases e with
  | source y => by_cases h : x = y <;> simp [State.setTagOf, h]
  | sink t => rfl

theorem setTagOf_holder (s : State) (e : Endpoint) (tag : Tag) (x : Sink) :
    ((s.setTagOf e tag).sinkEntry x).holder = (s.sinkEntry x).holder := by
  cases e with
  | source y => rfl
  | sink t => by_cases h : x = t <;> simp [State.setTagOf, h]

/-- Only the directory changes. -/
theorem setTagOf_directory (s : State) (e : Endpoint) (tag : Tag) :
    { s.setTagOf e tag with sources := s.sources, sinks := s.sinks } = s := by
  cases e <;> rfl

/-! ### The command (R89, R156) -/

/-- A frame of SET_TAG with one to four characters is judged by the checks of R89. -/
theorem exec_setTag (h : s.serving p = true) (seq b : Byte) {chars : List Byte} (hmin : 1 ≤ chars.length)
    (hmax : chars.length ≤ 4) :
    exec (.setTag p seq (b :: chars)) s =
      .next (((setTag p b chars s).st.post (setTag p b chars s).evs).replied p seq (setTag p b chars s).result
        (setTag p b chars s).payload (5 + chars.length)) := by
  have hlength : (decide (2 ≤ (b :: chars).length) && decide ((b :: chars).length ≤ 5)) = true := by simp; omega
  have hbytes : 4 + (b :: chars).length = 5 + chars.length := by simp; omega
  refine congrArg Host.Outcome.next ?_
  rw [hlength, takeCommand_serving h, hbytes]
  rfl

theorem setTag_unknown {b : Byte} (h : endpoint? b.toNat = none) (chars : List Byte) :
    setTag p b chars s = refuse .noSuchEndpoint s := by
  simp only [setTag, h]

theorem setTag_unprintable {b : Byte} {chars : List Byte} {e : Endpoint} (h : endpoint? b.toNat = some e)
    (hbad : tagPrintable (padTag chars) = false) : setTag p b chars s = refuse .badArgument s := by
  simp [setTag, h, hbad]

theorem setTag_accepted {b : Byte} {chars : List Byte} {e : Endpoint} (h : endpoint? b.toNat = some e)
    (hgood : tagPrintable (padTag chars) = true) :
    setTag p b chars s =
      accept (s.setTagOf e (padTag chars)) [{ aud := .everyOpenBut p, ev := .tagChanged e (padTag chars) }]
        (b :: Tag.bytes (padTag chars)) := by
  simp [setTag, h, hgood]

/-- Settles O30, by the checks of R89 in order and the one entry written. -/
theorem setTagWritesOneTag : Obligations.SetTagWritesOneTag := by
  intro s p seq b chars h hmin hmax tag
  have hprint := tagPrintable_padTag hmax
  refine ⟨fun hb => ?_, fun hb hchars => ?_, fun e he hchars => ?_⟩
  · rw [exec_setTag h seq b hmin hmax, setTag_unknown (endpoint?_eq_none_iff.mpr hb)]; simp
  · obtain ⟨e, he⟩ := Option.ne_none_iff_exists'.mp fun hn => absurd (endpoint?_eq_none_iff.mp hn) (Nat.not_lt.mpr hb)
    have hbad : tagPrintable (padTag chars) = false := by
      obtain ⟨c, hc, hrange⟩ := hchars
      rw [← Bool.not_eq_true, hprint]
      intro hall
      have := hall c hc
      omega
    rw [exec_setTag h seq b hmin hmax, setTag_unprintable he hbad]; simp
  · refine ⟨s.setTagOf e tag, ?_, ?_, fun e' he' => ?_, setTagOf_fanOut s e tag, setTagOf_holder s e tag,
      setTagOf_directory s e tag⟩
    · rw [exec_setTag h seq b hmin hmax, setTag_accepted he (hprint.mpr hchars)]; rfl
    · rw [tagOf_setTagOf, if_pos rfl]
    · rw [tagOf_setTagOf, if_neg he']

end Sys2Proof.Machine
end

section
/-! SET_LANE on a port that serves a session: its checks in order, and an accepted one that enables, repeats or rebinds. -/

namespace Sys2Proof.Machine

variable {s : State} {p : Port} {l : LaneId} {d : Domain}

/-! ### The bytes that name a lane and a domain (Table 10.3) -/

theorem Idx.toNat_ofMod (n : Nat) : (Idx.ofMod n).toNat = n % 4 := by
  have hlt : n % 4 < 4 := Nat.mod_lt _ (by decide)
  unfold Idx.ofMod
  match n % 4, hlt with
  | 0, _ | 1, _ | 2, _ | 3, _ => rfl

theorem byteOf_eq {n : Nat} {b : Byte} (h : n = b.toNat) : byteOf n = b := by
  simp [h, byteOf]

theorem byteOf_code_of_lane? {lb : Byte} (h : lane? lb = some l) : byteOf (LaneId.code l) = lb := by
  apply byteOf_eq
  unfold lane? at h
  split at h
  · obtain rfl := Option.some.inj h
    simp only [LaneId.code, Idx.toNat_ofMod]
    omega
  · split at h
    · obtain rfl := Option.some.inj h
      simp only [LaneId.code, Idx.toNat_ofMod]
      omega
    · cases h

theorem byteOf_code_of_domain? {db : Byte} (h : domain? db = some d) : byteOf (Domain.code d) = db := by
  apply byteOf_eq
  unfold domain? at h
  split at h <;> simp at h <;> subst h <;> simp [Domain.code, *]

theorem lane?_eq_none {lb : Byte} (h : lb.toNat < 0x40 ∨ 0x47 < lb.toNat) : lane? lb = none := by
  unfold lane?
  rw [if_neg (by omega), if_neg (by omega)]

theorem yesNo?_eq_none {eb : Byte} (h : 1 < eb.toNat) : yesNo? eb = none := by
  match hn : eb.toNat, h with
  | n + 2, _ => simp [yesNo?, hn]

/-! ### The checks in order (R97) -/

/-- A frame of SET_LANE with its three parameters is judged by the checks of R97. -/
theorem exec_setLane (h : s.serving p = true) (seq lb eb db : Byte) :
    exec (.setLane p seq [lb, eb, db]) s =
      .next (((setLane p lb eb db s).st.post (setLane p lb eb db s).evs).replied p seq (setLane p lb eb db s).result
        (setLane p lb eb db s).payload 7) :=
  congrArg Host.Outcome.next (takeCommand_serving h seq [lb, eb, db] true (setLane p lb eb db))

theorem exec_setLane_refused (h : s.serving p = true) (seq : Byte) {lb eb db : Byte} {res : Result}
    (hrefuse : setLane p lb eb db s = refuse res s) :
    exec (.setLane p seq [lb, eb, db]) s = .next (s.replied p seq res [] 7) := by
  rw [exec_setLane h, hrefuse]; simp

/-- A lane, an enable value or a domain that is none is refused before anything else. -/
theorem setLane_bad {lb eb db : Byte} (h : lane? lb = none ∨ yesNo? eb = none ∨ domain? db = none) :
    setLane p lb eb db s = refuse .badArgument s := by
  unfold setLane
  split
  · next hl he hd => simp [hl, he, hd] at h
  · rfl

section Checks

variable {lb eb db : Byte} {enable : Bool} (hl : lane? lb = some l) (he : yesNo? eb = some enable) (hd : domain? db = some d)
include hl he hd

/-- A new binding while a route uses the lane. -/
theorem setLane_inUse (hb : (s.lane l).binding ≠ d) (hused : s.routes.any (fun r => usesLane r l) = true) :
    setLane p lb eb db s = refuse .laneInUse s := by
  simp only [setLane, hl, he, hd]
  rw [if_pos]
  simp [hb, hused]

/-- A lane that carries a route of another port is not disabled. -/
theorem setLane_foreign (hb : (s.lane l).binding = d) (hen : (s.lane l).enabled = true) (hoff : enable = false)
    (hforeign : s.routes.any (fun r => usesLane r l && r.owner != some p && r.owner != none) = true) :
    setLane p lb eb db s = refuse .notOwner s := by
  simp only [setLane, hl, he, hd]
  rw [if_neg, if_pos]
  · simp [hen, hoff, hforeign]
  · simp [hb]

/-- The response and the events of a SET_LANE that passes the checks. -/
theorem exec_setLane_passed (h : s.serving p = true) (seq : Byte)
    (hfree : (s.lane l).binding = d ∨ s.routes.any (fun r => usesLane r l) = false)
    (howned : enable = true ∨ (s.lane l).enabled = false ∨
      s.routes.any (fun r => usesLane r l && r.owner != some p && r.owner != none) = false) :
    exec (.setLane p seq [lb, eb, db]) s =
      .next (((applyLane p l enable d s).st.post (applyLane p l enable d s).evs).replied p seq .ok
        (applyLane p l enable d s).payload 7) := by
  have happly : setLane p lb eb db s = applyLane p l enable d s := by
    simp only [setLane, hl, he, hd]
    rw [if_neg, if_neg]
    · rcases howned with h | h | h <;> simp [h]
    · rcases hfree with h | h <;> simp [h]
  rw [exec_setLane h, happly]
  rfl

end Checks

/-! ### The record of the lane (R95, R98, R99, Table 5.4) -/

/-- An input lane takes its record and reports its sources when it leaves or enters RUNNING. -/
theorem changeLane_input (s : State) (i : Idx) (after : Lane) :
    s.changeLane (.input i) after =
      { s with
        inLanes := s.inLanes.set i after
        routeReports := s.routeReports ++ sourceReports i (s.inLanes.get i).state after.state } :=
  reportSources_eq ..

theorem countDraw_eq (s : State) (before after : Lane) :
    s.countDraw before after =
      { s with
        freeDraws :=
          if after.enabled && !(before.enabled && before.binding == after.binding) then s.freeDraws + 1
          else s.freeDraws } := by
  unfold State.countDraw
  by_cases h : (after.enabled && !(before.enabled && before.binding == after.binding)) = true
  · simp only [h, if_true]
  · simp only [h]; rfl

/-- An output lane takes its record, and a free value is drawn when it is enabled or rebound. -/
theorem changeLane_output (s : State) (i : Idx) (after : Lane) :
    s.changeLane (.output i) after =
      { s with
        outLanes := s.outLanes.set i after
        freeDraws :=
          if after.enabled && !((s.outLanes.get i).enabled && (s.outLanes.get i).binding == after.binding) then
            s.freeDraws + 1
          else s.freeDraws } :=
  countDraw_eq ..

theorem changeLane_self (s : State) (l : LaneId) : s.changeLane l (s.lane l) = s := by
  cases l with
  | input i => simp [changeLane_input, sourceReports, State.lane]
  | output i => simp [changeLane_output, State.lane]

/-- A lane that is enabled, or that leaves its binding, starts afresh. -/
theorem laneAfterSet_afresh (h : (s.lane l).enabled = false ∨ (s.lane l).binding ≠ d) :
    s.laneAfterSet l true d =
      { enabled := true, binding := d, state := enabledState l, goodRun := 0, badRun := 0, syncPhase := none,
        wires := s.wiresAfterSet l d } := by
  rcases h with h | h <;> simp [State.laneAfterSet, h]

theorem laneAfterSet_same (hen : (s.lane l).enabled = true) (hb : (s.lane l).binding = d) :
    s.laneAfterSet l true d = s.lane l := by
  simp [State.laneAfterSet, hen, hb]

theorem laneStateMade_self (l : LaneId) (x : Lane) : laneStateMade l x x = false := by
  cases l <;> simp [laneStateMade]

theorem laneStateMade_of_state_ne {before after : Lane} (h : before.state ≠ after.state) :
    laneStateMade l before after = true := by
  simp [laneStateMade, h]

theorem laneStateMade_of_enabled {before after : Lane} (hb : before.state = .disabled) (ha : after.state = enabledState l) :
    laneStateMade l before after = true :=
  laneStateMade_of_state_ne (by cases l <;> simp [hb, ha, enabledState])

/-- An input lane that takes a new binding makes LANE_STATE also from SEEKING into SEEKING (R100). -/
theorem laneStateMade_of_rebound {before after : Lane} {i : Idx} (hb : before.binding ≠ after.binding)
    (ha : after.state = .seeking) : laneStateMade (.input i) before after = true := by
  by_cases h : before.state = .seeking <;> simp [laneStateMade, h, hb, ha]

/-! ### An accepted SET_LANE with enable yes -/

/-- LANE_CHANGED for the other open ports, and LANE_STATE for every open port where it is made (R100). -/
def laneTold (p : Port) (l : LaneId) (enable : Bool) (d : Domain) (before after : Lane) : List Emit :=
  { aud := .everyOpenBut p, ev := .laneChanged l d enable } ::
    if laneStateMade l before after then [{ aud := .everyOpen, ev := .laneState l d after.state }] else []

theorem laneTold_made {enable : Bool} {before after : Lane} (h : laneStateMade l before after = true) :
    laneTold p l enable d before after =
      [{ aud := .everyOpenBut p, ev := .laneChanged l d enable }, { aud := .everyOpen, ev := .laneState l d after.state }] := by
  simp [laneTold, h]

theorem laneTold_unmade {enable : Bool} {before after : Lane} (h : laneStateMade l before after = false) :
    laneTold p l enable d before after = [{ aud := .everyOpenBut p, ev := .laneChanged l d enable }] := by
  simp [laneTold, h]

/-- The outcome by the record that the lane takes, what the ports are told and what else changes; no route is released, so
byte 4 of the response is 0. -/
theorem exec_setLane_enable (h : s.serving p = true) (seq : Byte) {lb db : Byte} (hl : lane? lb = some l)
    (hd : domain? db = some d) (hfree : (s.lane l).binding = d ∨ s.routes.any (fun r => usesLane r l) = false)
    {after : Lane} {evs : List Emit} {t : State} (hafter : s.laneAfterSet l true d = after)
    (htold : laneTold p l true d (s.lane l) after = evs) (hchange : s.changeLane l after = t) :
    exec (.setLane p seq [lb, 1#8, db]) s =
      .next ((t.post evs).replied p seq .ok [lb, 1#8, db, byteOf after.state.code, 0#8] 7) := by
  subst hafter htold hchange
  rw [exec_setLane_passed hl rfl hd h seq hfree (.inl rfl)]
  simp only [applyLane, Bool.not_true, Bool.and_false, Bool.false_eq_true, if_false, Nat.sub_self,
    byteOf_code_of_lane? hl, byteOf_code_of_domain? hd]
  rfl

/-- Settles O31, by the side of the lane and by Table 5.4. -/
theorem setLaneEnablesAndRebinds : Obligations.SetLaneEnablesAndRebinds := by
  intro s p seq lb db l d h hl hd changed entered unused answer
  refine ⟨fun hoff hdisabled hfree => ⟨?_, ?_⟩, fun hon hb => ?_, fun _ hb hunused => ?_, fun _ hb hunused hrunning => ?_⟩
  · rintro i rfl
    refine exec_setLane_enable h seq hl hd hfree (laneAfterSet_afresh (.inl hoff))
      (laneTold_made (laneStateMade_of_enabled hdisabled rfl)) ?_
    have hbefore : (s.inLanes.get i).state = .disabled := hdisabled
    simp [changeLane_input, sourceReports, hbefore, enabledState, State.wiresAfterSet]
  · rintro i rfl
    refine exec_setLane_enable h seq hl hd hfree (laneAfterSet_afresh (.inl hoff))
      (laneTold_made (laneStateMade_of_enabled hdisabled rfl)) ?_
    have hbefore : (s.outLanes.get i).enabled = false := hoff
    simp [changeLane_output, hbefore, enabledState, State.wiresAfterSet]
  · exact exec_setLane_enable h seq hl hd (.inl hb) (laneAfterSet_same hon hb)
      (laneTold_unmade (laneStateMade_self ..)) (changeLane_self s l)
  · rintro i rfl
    refine exec_setLane_enable h seq hl hd (.inr hunused) (laneAfterSet_afresh (.inr hb))
      (laneTold_made (laneStateMade_of_rebound hb rfl)) ?_
    by_cases hbefore : (s.inLanes.get i).state = .running <;>
      simp [changeLane_input, sourceReports, hbefore, enabledState, State.wiresAfterSet]
  · rintro i rfl
    have hunmade : laneStateMade (.output i) (s.lane (.output i)) (s.laneAfterSet (.output i) true d) = false := by
      simp [laneStateMade, laneAfterSet_afresh (.inr hb), hrunning, enabledState]
    rw [laneAfterSet_afresh (.inr hb)] at hunmade
    refine exec_setLane_enable h seq hl hd (.inr hunused) (laneAfterSet_afresh (.inr hb)) (laneTold_unmade hunmade) ?_
    have hbefore : (s.outLanes.get i).binding ≠ d := hb
    simp [changeLane_output, hbefore, enabledState, State.wiresAfterSet]

end Sys2Proof.Machine
end

section
/-! The release of the routes of a lane that is disabled: which records leave the table, whom it tells, and what it keeps. -/

namespace Sys2Proof.Machine

variable {s : State} {l : LaneId}

/-! ### One release after another -/

/-- When each change takes its own record from the table, those of the ids leave and the others stay. -/
theorem forRoutes_routes {f : Route → State → Eff}
    (hf : ∀ r s, (f r s).st.routes = s.routes.filter fun x => x.id != r.id) (ids : List Nat) (s : State) :
    (forRoutes f ids s).1.routes = s.routes.filter fun x => !ids.contains x.id := by
  induction ids generalizing s with
  | nil => exact (List.filter_eq_self.mpr fun _ _ => rfl).symm
  | cons id ids ih =>
    unfold forRoutes
    split
    · next hn =>
      rw [ih]
      refine List.filter_congr fun x hx => ?_
      have hne : x.id ≠ id := State.route?_eq_none.mp hn x hx
      simp [hne]
    · next r hr =>
      obtain ⟨rfl, -⟩ := State.route?_some hr
      rw [ih, hf, List.filter_filter]
      refine List.filter_congr fun x _ => ?_
      rw [Bool.eq_iff_iff]
      simp [and_comm]

/-- When the events of each change are those of its record alone, and each reaches only its record, the records of distinct
ids give their events in turn. -/
theorem forRoutes_evs {f : Route → State → Eff} {g : Route → List Emit} (hevs : ∀ r s, (f r s).evs = g r)
    (hreach : ∀ r s, ReachesOnly r s (f r s).st) {rs : List Route} (hdistinct : (rs.map (·.id)).Nodup) {s : State}
    (hstand : ∀ r ∈ rs, s.route? r.id = some r) : (forRoutes f (rs.map (·.id)) s).2 = rs.map g := by
  induction rs generalizing s with
  | nil => rfl
  | cons r rs ih =>
    obtain ⟨hnew, hrest⟩ := List.nodup_cons.mp hdistinct
    have hstand' : ∀ x ∈ rs, (f r s).st.route? x.id = some x := by
      intro x hx
      have hid : x.id ≠ r.id := fun he => hnew (List.mem_map.mpr ⟨x, hx, he⟩)
      rw [(hreach r s).others _ hid, hstand x (List.mem_cons_of_mem _ hx)]
    simp only [List.map_cons, forRoutes, hstand r (List.mem_cons_self ..), hevs, ih hrest hstand']

theorem forRoutes_idsWhere_evs {f : Route → State → Eff} {g : Route → List Emit} (hevs : ∀ r s, (f r s).evs = g r)
    (hreach : ∀ r s, ReachesOnly r s (f r s).st) {P : Route → Bool} (ho : RoutesOrdered s) {t : State} (ht : RoutesOrdered t)
    (hstand : ∀ r ∈ s.routes, P r = true → r ∈ t.routes) :
    (forRoutes f (s.idsWhere P) t).2 = (s.routes.filter P).map g := by
  refine forRoutes_evs hevs hreach (nodup_idsWhere ho P) fun r hr => ?_
  obtain ⟨hm, hP⟩ := List.mem_filter.mp hr
  exact State.route?_of_mem ht (hstand r hm hP)

theorem releaseWaiter_reachesOnly (c : ReleaseCause) (tell : Bool) (r : Route) (s : State) :
    ReachesOnly r s (releaseWaiter c tell r s).st :=
  (setClaim_reachesOnly s r r.sink _).trans (eraseRoute_reachesOnly _ r)

/-! ### The routes of a lane (R98) -/

/-- The waiters of the lane have been released, and its holders not yet. -/
def State.laneWaitersReleased (s : State) (l : LaneId) : State :=
  (forRoutes (releaseWaiter .endpointDisabled true) (s.idsWhere fun r => usesLane r l && !r.state.holds) s).1

theorem laneWaitersReleased_routes (ho : RoutesOrdered s) (l : LaneId) :
    (s.laneWaitersReleased l).routes = s.routes.filter fun r => !(usesLane r l && !r.state.holds) := by
  refine (forRoutes_routes (fun r s => eraseRoute_routes _ r) _ s).trans (List.filter_congr fun r hr => ?_)
  rw [Bool.eq_iff_iff]
  simp only [Bool.not_eq_true', ← Bool.not_eq_true, List.contains_iff_mem, id_mem_idsWhere ho hr]

/-- The routes that use the lane leave the table, and no other route. -/
theorem releaseLane_routes (ho : RoutesOrdered s) (l : LaneId) :
    (s.releaseLane l).st.routes = s.routes.filter fun r => !usesLane r l := by
  refine (forRoutes_routes (fun r s => eraseRoute_routes _ r) _ (s.laneWaitersReleased l)).trans ?_
  rw [laneWaitersReleased_routes ho, List.filter_filter]
  refine List.filter_congr fun r hr => ?_
  have hmem : (s.idsWhere fun r => usesLane r l && r.state.holds).contains r.id = (usesLane r l && r.state.holds) := by
    rw [Bool.eq_iff_iff, List.contains_iff_mem, id_mem_idsWhere ho hr]
  rw [hmem]
  cases usesLane r l <;> cases r.state.holds <;> rfl

theorem releaseLane_ordered (ho : RoutesOrdered s) (l : LaneId) : RoutesOrdered (s.releaseLane l).st :=
  ho.of_ids (releaseLane_routes ho l ▸ List.filter_sublist.map _)

theorem releaseLane_route? (ho : RoutesOrdered s) (l : LaneId) {r : Route} (hr : r ∈ s.routes) :
    (s.releaseLane l).st.route? r.id = if usesLane r l then none else some r := by
  have hroutes := releaseLane_routes ho l
  split
  · next hu =>
    refine State.route?_eq_none.mpr fun x hx he => ?_
    rw [hroutes, List.mem_filter] at hx
    obtain ⟨hm, hx⟩ := hx
    simp [ho.id_inj hm hr he, hu] at hx
  · next hu =>
    exact State.route?_of_mem (releaseLane_ordered ho l) (hroutes ▸ List.mem_filter.mpr ⟨hr, by simpa using hu⟩)

/-- The number of routes released (R98). -/
theorem releaseLane_count (ho : RoutesOrdered s) (l : LaneId) :
    s.routes.length - (s.releaseLane l).st.routes.length = s.routes.countP fun r => usesLane r l := by
  rw [releaseLane_routes ho, List.length_eq_countP_add_countP (fun r => usesLane r l), ← List.countP_eq_length_filter]
  simp

/-- Lanes, ports, queues, domains, channels and reports are not reached. -/
theorem releaseLane_same (s : State) (l : LaneId) : SameButRoutes s (s.releaseLane l).st :=
  (forRoutes_same (releaseWaiter_same .endpointDisabled true) _ s).trans
    (forRoutes_same (releaseHolder_same .endpointDisabled true) _ _)

theorem releaseLane_isOpen (s : State) (l : LaneId) (q : Port) :
    ((s.releaseLane l).st.session q).isOpen = (s.session q).isOpen :=
  forRoutes_keeps (P := fun t => (t.session q).isOpen = (s.session q).isOpen)
    (fun r t ht => ((releaseHolder_reachesOnly _ _ r t).sessions q).1.trans ht) _ (s.laneWaitersReleased l)
    (forRoutes_keeps (P := fun t => (t.session q).isOpen = (s.session q).isOpen)
      (fun r t ht => ((releaseWaiter_reachesOnly _ _ r t).sessions q).1.trans ht) _ s rfl)

/-! ### What the owners are told (R98, R137) -/

theorem eventsFor_append (q : Port) (es es' : List Emit) : eventsFor q (es ++ es') = eventsFor q es ++ eventsFor q es' := by
  simp [eventsFor]

theorem eventsFor_tellOwner (q : Port) (r : Route) (ev : Event) :
    eventsFor q (tellOwner r ev) = if r.owner == some q then [ev] else [] := by
  unfold tellOwner
  cases ho : r.owner with
  | none => rfl
  | some p => by_cases h : p = q <;> simp [eventsFor, Audience.has, h]

/-- The owner of each route is told of it. -/
theorem eventsFor_tellOwners (q : Port) (f : Route → Event) (rs : List Route) :
    eventsFor q (rs.flatMap fun r => tellOwner r (f r)) = (rs.filter fun r => r.owner == some q).map f := by
  rw [← flatMap_ite_singleton]
  unfold eventsFor
  rw [List.filter_flatMap, List.map_flatMap]
  exact congrArg (rs.flatMap ·) (funext fun r => eventsFor_tellOwner q r (f r))

/-- What the owner of a route of the lane is told. -/
def tellDisabled (r : Route) : List Emit := tellOwner r (.routeReleased r.id r.sink .endpointDisabled)

/-- What is told of the routes of the lane that hold their sinks, or that wait. -/
def State.laneReleases (s : State) (l : LaneId) (holds : Bool) : List Emit :=
  (s.routes.filter fun r => usesLane r l && r.state.holds == holds).flatMap tellDisabled

/-- ROUTE_RELEASED of those among them that a port owns. -/
def State.laneReleasesFor (s : State) (l : LaneId) (q : Port) (holds : Bool) : List Event :=
  (s.routes.filter fun r => usesLane r l && r.state.holds == holds && r.owner == some q).map fun r =>
    .routeReleased r.id r.sink .endpointDisabled

theorem eventsFor_laneReleases (s : State) (l : LaneId) (q : Port) (holds : Bool) :
    eventsFor q (s.laneReleases l holds) = s.laneReleasesFor l q holds := by
  refine (eventsFor_tellOwners q _ _).trans ?_
  rw [List.filter_filter]
  simp only [State.laneReleasesFor, Bool.and_comm]

/-- The waiters and then the holders, in ascending order of id. -/
theorem releaseLane_evs (ho : RoutesOrdered s) (l : LaneId) :
    (s.releaseLane l).evs = s.laneReleases l false ++ s.laneReleases l true := by
  have hwaiters : (forRoutes (releaseWaiter .endpointDisabled true)
      (s.idsWhere fun r => usesLane r l && !r.state.holds) s).2.flatten = s.laneReleases l false := by
    rw [forRoutes_idsWhere_evs (f := releaseWaiter .endpointDisabled true) (g := tellDisabled) (fun _ _ => rfl)
      (releaseWaiter_reachesOnly _ _) ho ho fun r hr _ => hr]
    simp [State.laneReleases, List.flatMap_def]
  have hordered : RoutesOrdered (s.laneWaitersReleased l) :=
    ho.of_ids (laneWaitersReleased_routes ho l ▸ List.filter_sublist.map _)
  have hstand : ∀ r ∈ s.routes, (usesLane r l && r.state.holds) = true → r ∈ (s.laneWaitersReleased l).routes := by
    intro r hr hP
    rw [laneWaitersReleased_routes ho, List.mem_filter]
    exact ⟨hr, by simp [(Bool.and_eq_true_iff.mp hP).2]⟩
  have hholders : (forRoutes (releaseHolder .endpointDisabled true)
      (s.idsWhere fun r => usesLane r l && r.state.holds) (s.laneWaitersReleased l)).2.flatten = s.laneReleases l true := by
    rw [forRoutes_idsWhere_evs (f := releaseHolder .endpointDisabled true) (g := tellDisabled) (fun _ _ => rfl)
      (releaseHolder_reachesOnly _ _) ho hordered hstand]
    simp [State.laneReleases, List.flatMap_def]
  exact congr (congrArg (· ++ ·) hwaiters) hholders

/-- When no other port's route uses the lane, no other port is told of a release. -/
theorem laneReleasesFor_other {p q : Port} (hq : q ≠ p)
    (hforeign : s.routes.any (fun r => usesLane r l && r.owner != some p && r.owner != none) = false) (holds : Bool) :
    s.laneReleasesFor l q holds = [] := by
  unfold State.laneReleasesFor
  rw [List.map_eq_nil_iff, List.filter_eq_nil_iff]
  intro r hr hmine
  simp only [Bool.and_eq_true, beq_iff_eq] at hmine
  obtain ⟨⟨hu, -⟩, howner⟩ := hmine
  have hother := List.any_eq_false.mp hforeign r hr
  simp [hu, howner, hq] at hother

end Sys2Proof.Machine
end

section
/-! SET_LANE with enable no: the record of the disabled lane, the routes it releases, and what the ports are told. -/

namespace Sys2Proof.Machine

variable {s : State} {p : Port} {l : LaneId} {d : Domain}

/-! ### The lane and what else its change reaches -/

/-- A disabled lane (R98, Table 5.2). -/
def Lane.off (d : Domain) : Lane :=
  { enabled := false, binding := d, state := .disabled, goodRun := 0, badRun := 0, syncPhase := none, wires := .low }

theorem laneAfterSet_disable (s : State) (l : LaneId) (d : Domain) : s.laneAfterSet l false d = Lane.off d := rfl

/-- The sources of an input lane go down when it is disabled in RUNNING (R95). -/
def laneDownReports : LaneId → LaneState → List RouteReport
  | .input i, before => if before = .running then [.sourcesDown i] else []
  | .output _, _ => []

theorem changeLane_off (s : State) (l : LaneId) (d : Domain) :
    s.changeLane l (Lane.off d) =
      { s.setLane l (Lane.off d) with routeReports := s.routeReports ++ laneDownReports l (s.lane l).state } := by
  cases l with
  | input i =>
    by_cases h : (s.inLanes.get i).state = .running <;>
      simp [changeLane_input, sourceReports, laneDownReports, State.lane, State.setLane, Lane.off, h]
  | output i => simp [changeLane_output, laneDownReports, State.setLane, Lane.off]

/-- An enabled lane is not DISABLED, and a lane that is not enabled is (Table 5.2). -/
theorem LanesSound.disabled_iff (hs : LanesSound s) (l : LaneId) : (s.lane l).state = .disabled ↔ (s.lane l).enabled = false := by
  obtain ⟨hin, hout⟩ := hs
  cases l with
  | input i => exact (hin i (mem_allIdx i)).1
  | output i => exact (hout i (mem_allIdx i)).1

theorem releaseLane_lane (s : State) (l k : LaneId) : (s.releaseLane l).st.lane k = s.lane k := by
  have hsame := releaseLane_same s l
  unfold SameButRoutes at hsame
  cases k with
  | input i => exact congrArg (fun t => t.inLanes.get i) hsame
  | output i => exact congrArg (fun t => t.outLanes.get i) hsame

/-- A disabled lane stays in its state, so no LANE_STATE is made. -/
theorem laneStateMade_of_disabled (l : LaneId) {before after : Lane} (hb : before.state = .disabled)
    (ha : after.state = .disabled) : laneStateMade l before after = false := by
  cases l <;> simp [laneStateMade, hb, ha]

/-! ### A disabled lane that takes a binding -/

theorem changeLane_off_of_disabled (h : (s.lane l).state = .disabled) (d : Domain) :
    s.changeLane l (Lane.off d) = s.setLane l (Lane.off d) := by
  have hreports : laneDownReports l (s.lane l).state = [] := by cases l <;> simp [laneDownReports, h]
  rw [changeLane_off, hreports, List.append_nil]
  cases l <;> rfl

/-- The outcome of an accepted SET_LANE that leaves a lane disabled (R99, R100). -/
theorem exec_setLane_stays_off (h : s.serving p = true) (seq : Byte) {lb db : Byte} (hl : lane? lb = some l)
    (hd : domain? db = some d) (hs : LanesSound s) (hoff : (s.lane l).enabled = false)
    (hfree : (s.lane l).binding = d ∨ s.routes.any (fun r => usesLane r l) = false) :
    exec (.setLane p seq [lb, 0#8, db]) s =
      .next (((s.setLane l (Lane.off d)).post [{ aud := .everyOpenBut p, ev := .laneChanged l d false }]).replied p seq .ok
        [lb, 0#8, db, 0#8, 0#8] 7) := by
  have hdisabled := (hs.disabled_iff l).mpr hoff
  rw [exec_setLane_passed hl rfl hd h seq hfree (.inr (.inl hoff))]
  simp only [applyLane, hoff, Bool.false_and, Bool.false_eq_true, if_false, laneAfterSet_disable,
    changeLane_off_of_disabled hdisabled, laneStateMade_of_disabled l hdisabled (rfl : (Lane.off d).state = .disabled),
    Nat.sub_self, byteOf_code_of_lane? hl, byteOf_code_of_domain? hd]
  rfl

/-! ### An enabled lane that is disabled -/

/-- The part when the routes of the lane have been released and the lane is disabled, the events apart. -/
def State.laneShut (s : State) (l : LaneId) (d : Domain) : State :=
  { (s.releaseLane l).st.setLane l (Lane.off d) with
    routeReports := s.routeReports ++ laneDownReports l (s.lane l).state }

/-- What is told then: of the routes released, LANE_CHANGED, and LANE_STATE (R98, R100). -/
def State.laneShutEvents (s : State) (p : Port) (l : LaneId) (d : Domain) : List Emit :=
  (s.releaseLane l).evs ++
    [{ aud := .everyOpenBut p, ev := .laneChanged l d false }, { aud := .everyOpen, ev := .laneState l d .disabled }]

theorem releaseLane_changeLane_off (s : State) (l : LaneId) (d : Domain) :
    (s.releaseLane l).st.changeLane l (Lane.off d) = s.laneShut l d := by
  have hsame := releaseLane_same s l
  unfold SameButRoutes at hsame
  have hreports : (s.releaseLane l).st.routeReports = s.routeReports :=
    (congrArg State.routeReports hsame :)
  rw [changeLane_off, releaseLane_lane, hreports]
  rfl

/-- The outcome of an accepted SET_LANE that disables an enabled lane (R98, R100). -/
theorem exec_setLane_disable (h : s.serving p = true) (seq : Byte) {lb db : Byte} (hl : lane? lb = some l)
    (hd : domain? db = some d) (hs : LanesSound s) (ho : RoutesOrdered s) (hon : (s.lane l).enabled = true)
    (hfree : (s.lane l).binding = d ∨ s.routes.any (fun r => usesLane r l) = false)
    (howned : s.routes.any (fun r => usesLane r l && r.owner != some p && r.owner != none) = false) :
    exec (.setLane p seq [lb, 0#8, db]) s =
      .next (((s.laneShut l d).post (s.laneShutEvents p l d)).replied p seq .ok
        [lb, 0#8, db, 0#8, byteOf (s.routes.countP fun r => usesLane r l)] 7) := by
  have hmade : laneStateMade l (s.lane l) (Lane.off d) = true :=
    laneStateMade_of_state_ne fun hst => by simp [(hs.disabled_iff l).mp hst] at hon
  rw [exec_setLane_passed hl rfl hd h seq hfree (.inr (.inr howned))]
  simp only [applyLane, hon, Bool.not_false, Bool.and_self, if_true, laneAfterSet_disable, releaseLane_changeLane_off, hmade,
    releaseLane_count ho, byteOf_code_of_lane? hl, byteOf_code_of_domain? hd]
  rfl

theorem laneShut_lane (s : State) (l k : LaneId) (d : Domain) :
    (s.laneShut l d).lane k = if k = l then Lane.off d else s.lane k := by
  have hset : (s.laneShut l d).lane k = ((s.releaseLane l).st.setLane l (Lane.off d)).lane k := by cases k <;> rfl
  rw [hset, State.lane_setLane, releaseLane_lane]

theorem laneShut_route? (ho : RoutesOrdered s) (l : LaneId) (d : Domain) {r : Route} (hr : r ∈ s.routes) :
    (s.laneShut l d).route? r.id = if usesLane r l then none else some r := by
  rw [← releaseLane_route? ho l hr]
  exact congrArg (List.find? _) (State.setLane_routes ..)

theorem laneShut_isOpen (s : State) (l : LaneId) (d : Domain) (q : Port) :
    ((s.laneShut l d).session q).isOpen = (s.session q).isOpen := by
  rw [← releaseLane_isOpen s l q]
  exact congrArg (fun x => (PerPort.get x q).isOpen) (State.setLane_sessions ..)

/-- Event queues, domains and channels are as they were. -/
theorem laneShut_kept (s : State) (l : LaneId) (d : Domain) :
    (s.laneShut l d).queues = s.queues ∧
      ((s.laneShut l d).fa, (s.laneShut l d).fb, (s.laneShut l d).fx, (s.laneShut l d).channels) =
        (s.fa, s.fb, s.fx, s.channels) := by
  have hsame := releaseLane_same s l
  unfold SameButRoutes at hsame
  have hset : (s.laneShut l d).queues = (s.releaseLane l).st.queues := State.setLane_queues ..
  have hkept : ((s.laneShut l d).fa, (s.laneShut l d).fb, (s.laneShut l d).fx, (s.laneShut l d).channels) =
      ((s.releaseLane l).st.fa, (s.releaseLane l).st.fb, (s.releaseLane l).st.fx, (s.releaseLane l).st.channels) := by
    cases l <;> rfl
  exact ⟨hset.trans (congrArg State.queues hsame :),
    hkept.trans (congrArg (fun t : State => (t.fa, t.fb, t.fx, t.channels)) hsame :)⟩

theorem laneShut_post_queue (s : State) (l : LaneId) (d : Domain) (es : List Emit) (q : Port) :
    ((s.laneShut l d).post es).queue q = s.queueAfter q (eventsFor q es) := by
  obtain ⟨hqueues, -⟩ := laneShut_kept s l d
  rw [State.queue_post_eq_queueAfter]
  simp only [State.queueAfter, laneShut_isOpen, State.queue, hqueues]

/-- The port that disables the lane owns the routes released, and is not told of its own change (R100). -/
theorem eventsFor_laneShut (ho : RoutesOrdered s)
    (howned : s.routes.any (fun r => usesLane r l && r.owner != some p && r.owner != none) = false) (q : Port) :
    eventsFor q (s.laneShutEvents p l d) =
      if q = p then s.laneReleasesFor l p false ++ s.laneReleasesFor l p true ++ [.laneState l d .disabled]
      else [.laneChanged l d false, .laneState l d .disabled] := by
  rw [State.laneShutEvents, eventsFor_append, releaseLane_evs ho, eventsFor_append, eventsFor_laneReleases,
    eventsFor_laneReleases]
  by_cases hq : q = p
  · subst hq
    simp [eventsFor, Audience.has]
  · have hp : p ≠ q := fun he => hq he.symm
    simp [laneReleasesFor_other hq howned, eventsFor, Audience.has, hq, hp]

/-- Settles O32, by the checks of R97 in order; an enabled lane by the release of its routes, a disabled one by its record. -/
theorem setLaneDisableReleasesRoutes : Obligations.SetLaneDisableReleasesRoutes := by
  refine ⟨fun s p seq lb eb db h hbad => exec_setLane_refused h seq (setLane_bad ?_), ?_⟩
  · rcases hbad with hb | hb | hb | hb
    · exact .inl (lane?_eq_none (.inl hb))
    · exact .inl (lane?_eq_none (.inr hb))
    · exact .inr (.inl (yesNo?_eq_none hb))
    · exact .inr (.inr (domain?_eq_none hb))
  intro s p seq lb db l d h hl hd ho hs foreign allowed disabled released
  refine ⟨fun hon hfree howned => ⟨_, exec_setLane_disable h seq hl hd hs ho hon hfree howned, ?_⟩, fun hoff hfree => ?_,
    fun hon hb hforeign => ?_, fun hb hused eb he => ?_⟩
  · rw [State.post_eq]
    obtain ⟨hqueues, hkept⟩ := laneShut_kept s l d
    refine ⟨(laneShut_lane s l l d).trans (if_pos rfl), ?_, fun r hr => laneShut_route? ho l d hr,
      fun k hk => (laneShut_lane s l k d).trans (if_neg hk), ⟨_, ?_, rfl⟩, ?_, fun q => ?_, hkept⟩
    · rintro i rfl w n half
      have hwires : ((s.laneShut (.output i) d).outLanes.get i).wires = .low :=
        congrArg Lane.wires ((laneShut_lane s (.output i) (.output i) d).trans (if_pos rfl))
      rw [State.laneLevel_eq]
      exact (congrArg (fun x => Sending.asserted x w n half) hwires).trans (Sending.asserted_low ..)
    · simp [State.replied, State.port]
    · cases l <;> rfl
    · rw [← State.post_eq]
      exact (laneShut_post_queue s l d _ q).trans (congrArg (s.queueAfter q) (eventsFor_laneShut ho howned q))
  · exact exec_setLane_stays_off h seq hl hd hs hoff hfree
  · exact exec_setLane_refused h seq (setLane_foreign hl rfl hd hb hon rfl hforeign)
  · obtain ⟨enable, he⟩ := Option.ne_none_iff_exists'.mp he
    exact exec_setLane_refused h seq (setLane_inUse hl he hd hb hused)

end Sys2Proof.Machine
end

section
/-! The ring of a store in closed form: what a run of samples put at the tail, handed out from the head or discarded leaves of
the record, and when the record is sound but for the sides of its marks. -/

namespace Sys2Proof.Machine

/-! ### Samples in and out (R104, R114 to R116) -/

namespace Store

/-- Samples put at the tail and counted as accepted. -/
def withTail (st : Store) (xs : List Sample) : Store :=
  { st with
    ring := st.ring ++ xs
    writePos := (st.writePos + xs.length) % st.samples
    accepted := st.accepted + BitVec.ofNat 32 xs.length }

/-- The oldest `k` samples gone from the head, neither delivered nor discarded as yet. -/
def withoutHead (st : Store) (k : Nat) : Store :=
  { st with ring := st.ring.drop k, readPos := (st.readPos + k) % st.samples }

/-- The oldest `k` samples handed out and counted as delivered. -/
def handedOut (st : Store) (k : Nat) : Store :=
  { st.withoutHead k with delivered := st.delivered + BitVec.ofNat 32 k }

/-- The oldest `k` samples dropped and counted as discarded. -/
def discardedHead (st : Store) (k : Nat) : Store :=
  { st.withoutHead k with discarded := st.discarded + BitVec.ofNat 32 k }

@[simp] theorem withTail_samples (st : Store) (xs : List Sample) : (st.withTail xs).samples = st.samples := rfl

@[simp] theorem withTail_fill (st : Store) (xs : List Sample) : (st.withTail xs).fill = st.fill + xs.length :=
  List.length_append

@[simp] theorem withoutHead_fill (st : Store) (k : Nat) : (st.withoutHead k).fill = st.fill - k := List.length_drop

@[simp] theorem handedOut_samples (st : Store) (k : Nat) : (st.handedOut k).samples = st.samples := rfl

@[simp] theorem handedOut_fill (st : Store) (k : Nat) : (st.handedOut k).fill = st.fill - k := withoutHead_fill st k

@[simp] theorem discardedHead_samples (st : Store) (k : Nat) : (st.discardedHead k).samples = st.samples := rfl

@[simp] theorem discardedHead_fill (st : Store) (k : Nat) : (st.discardedHead k).fill = st.fill - k :=
  withoutHead_fill st k

end Store

variable {st : Store}

theorem nextCell_eq {pos : Nat} (h : pos < st.samples) : nextCell st pos = (pos + 1) % st.samples := by
  unfold nextCell
  split
  · next hlt => rw [Nat.mod_eq_of_lt hlt]
  · rw [show pos + 1 = st.samples by omega, Nat.mod_self]

theorem acceptSample_eq (h : st.writePos < st.samples) (x : Sample) : acceptSample st x = st.withTail [x] := by
  simp [acceptSample, Store.withTail, nextCell_eq h]

theorem dropHead_eq (hpos : st.readPos < st.samples) (hne : st.ring ≠ []) : dropHead st = st.withoutHead 1 := by
  obtain ⟨x, xs, hring⟩ := List.exists_cons_of_ne_nil hne
  simp [dropHead, hring, Store.withoutHead, nextCell_eq hpos]

theorem discardSample_eq (hpos : st.readPos < st.samples) (hne : st.ring ≠ []) :
    discardSample st = st.discardedHead 1 := by
  rw [Store.discardedHead, ← dropHead_eq hpos hne]
  obtain ⟨x, xs, hring⟩ := List.exists_cons_of_ne_nil hne
  simp [discardSample, hring]

theorem deliverSample_nil (h : st.ring = []) : deliverSample st = none := by
  simp [deliverSample, h]

theorem deliverSample_cons (hpos : st.readPos < st.samples) {x : Sample} {xs : List Sample} (h : st.ring = x :: xs) :
    deliverSample st = some (x, st.handedOut 1) := by
  rw [Store.handedOut, ← dropHead_eq hpos (by simp [h])]
  simp [deliverSample, h]

theorem withTail_withTail (st : Store) (xs ys : List Sample) :
    (st.withTail xs).withTail ys = st.withTail (xs ++ ys) := by
  simp [Store.withTail, Store.samples, Nat.add_assoc, BitVec.add_assoc, BitVec.ofNat_add]

theorem handedOut_handedOut (st : Store) (j k : Nat) : (st.handedOut j).handedOut k = st.handedOut (j + k) := by
  simp [Store.handedOut, Store.withoutHead, Store.samples, Nat.add_assoc, BitVec.add_assoc, BitVec.ofNat_add]

theorem discardedHead_discardedHead (st : Store) (j k : Nat) :
    (st.discardedHead j).discardedHead k = st.discardedHead (j + k) := by
  simp [Store.discardedHead, Store.withoutHead, Store.samples, Nat.add_assoc, BitVec.add_assoc, BitVec.ofNat_add]

theorem withTail_nil (h : st.writePos < st.samples) : st.withTail [] = st := by
  simp [Store.withTail, Nat.mod_eq_of_lt h]

theorem handedOut_zero (h : st.readPos < st.samples) : st.handedOut 0 = st := by
  simp [Store.handedOut, Store.withoutHead, Nat.mod_eq_of_lt h]

theorem discardedHead_zero (h : st.readPos < st.samples) : st.discardedHead 0 = st := by
  simp [Store.discardedHead, Store.withoutHead, Nat.mod_eq_of_lt h]

/-- STORE_WRITE's run puts the samples that fit at the tail. -/
theorem writeRun_eq (h : st.writePos < st.samples) (xs : List Sample) :
    (writeRun xs st).1 = st.withTail (xs.take (st.samples - st.fill)) := by
  induction xs generalizing st with
  | nil => simp [writeRun, withTail_nil h]
  | cons x xs ih =>
    have hpos : (st.withTail [x]).writePos < (st.withTail [x]).samples := Nat.mod_lt _ (by omega)
    unfold writeRun
    split
    · next hroom =>
      have hleft : st.samples - st.fill = (st.withTail [x]).samples - (st.withTail [x]).fill + 1 := by
        simp only [Store.withTail_samples, Store.withTail_fill, List.length_singleton]; omega
      rw [acceptSample_eq h, hleft, List.take_succ_cons]
      exact (ih hpos).trans (withTail_withTail ..)
    · next hfull => rw [show st.samples - st.fill = 0 by omega, List.take_zero, withTail_nil h]

/-- STORE_READ's run hands out the samples asked for, as far as the ring has them. -/
theorem readRun_eq (h : st.readPos < st.samples) (k : Nat) :
    (readRun k st).1 = st.handedOut (min k st.fill) := by
  induction k generalizing st with
  | zero => simp [readRun, handedOut_zero h]
  | succ k ih =>
    unfold readRun
    cases hring : st.ring with
    | nil => simp [deliverSample_nil hring, Store.fill, hring, handedOut_zero h]
    | cons x xs =>
      have hpos : (st.handedOut 1).readPos < (st.handedOut 1).samples := Nat.mod_lt _ (by omega)
      have hfill : st.fill = xs.length + 1 := by simp [Store.fill, hring]
      have hmin : 1 + min k (st.handedOut 1).fill = min (k + 1) st.fill := by
        rw [Store.handedOut_fill]; omega
      rw [deliverSample_cons h hring, ← hmin, ← handedOut_handedOut]
      exact ih hpos

/-- FLUSH_STORE's run discards all the ring holds. -/
theorem flushRing_eq (h : st.readPos < st.samples) : flushRing st.ring st = st.discardedHead st.fill := by
  generalize hxs : st.ring = xs
  induction xs generalizing st with
  | nil => simp [flushRing, Store.fill, hxs, discardedHead_zero h]
  | cons x xs ih =>
    have hpos : (st.discardedHead 1).readPos < (st.discardedHead 1).samples := Nat.mod_lt _ (by omega)
    have hring : (st.discardedHead 1).ring = xs := by simp [Store.discardedHead, Store.withoutHead, hxs]
    have hfill : st.fill = xs.length + 1 := by simp [Store.fill, hxs]
    have hsum : 1 + (st.discardedHead 1).fill = st.fill := by rw [Store.discardedHead_fill]; omega
    rw [flushRing, discardSample_eq h (by simp [hxs]), ih hpos hring, discardedHead_discardedHead, hsum]

/-! ### Episodes and marks (R109, R111, R112) -/

theorem endUnderrun_eq (st : Store) : endUnderrun st = { st with underrunEp := st.underrunEp && st.ring.isEmpty } := by
  have hfill : 0 < st.fill ↔ st.ring.isEmpty = false := by simp [Store.fill, List.length_pos_iff]
  unfold endUnderrun
  cases he : st.ring.isEmpty <;> simp [hfill, he]

theorem endOverrun_eq (st : Store) :
    endOverrun st = { st with overrunEp := st.overrunEp && decide (st.samples ≤ st.fill) } := by
  unfold endOverrun
  split
  · next h => simp [Nat.not_le.mpr h]
  · next h => simp [Nat.not_lt.mp h]

/-- The marks of a configured store, and the events of those crossed. -/
theorem updateMarks_eq (n : Idx) (h : st.capacity ≠ 0) :
    updateMarks n st =
      ({ st with aboveLow := decide (st.lowMark < st.fill), atHigh := decide (st.highMark ≤ st.fill) },
        markEvents n st st.fill) := by
  simp [updateMarks, h, markEvents]

/-! ### A record sound but for the sides of its marks -/

/-- What `StoreSound` says of a configured store, the sides of the marks and the two episodes left out. -/
structure RingSound (st : Store) : Prop where
  configured : st.capacity ≠ 0
  fill       : st.fill ≤ st.samples
  readPos    : st.readPos < st.samples
  writePos   : st.writePos = (st.readPos + st.fill) % st.samples
  totals     : st.accepted = st.delivered + st.discarded + BitVec.ofNat 32 st.fill
  marks      : st.lowMark < st.highMark ∧ st.highMark ≤ st.samples
  underruns  : st.underruns ≤ 65535

/-- The same with the two episodes: an underrun episode only on an empty ring, an overrun episode only on a full one. -/
structure EpisodesSound (st : Store) : Prop where
  ring     : RingSound st
  underrun : st.underrunEp = true → st.fill = 0
  overrun  : st.overrunEp = true → st.fill = st.samples

theorem storeSound_iff (h : st.capacity ≠ 0) :
    StoreSound st ↔ EpisodesSound st ∧ st.aboveLow = decide (st.lowMark < st.fill) ∧
      st.atHigh = decide (st.highMark ≤ st.fill) := by
  unfold StoreSound
  simp only [if_neg h, decide_eq_true h, Bool.true_and, ne_eq]
  exact ⟨fun ⟨hfill, ⟨hread, hwrite⟩, htotals, hmarks, hlow, hhigh, hunder, hover, hcount⟩ =>
      ⟨⟨⟨h, hfill, hread, hwrite, htotals, hmarks, hcount⟩, hunder, hover⟩, hlow, hhigh⟩,
    fun ⟨⟨hring, hunder, hover⟩, hlow, hhigh⟩ =>
      ⟨hring.fill, ⟨hring.readPos, hring.writePos⟩, hring.totals, hring.marks, hlow, hhigh, hunder, hover,
        hring.underruns⟩⟩

theorem StoreSound.episodes (hs : StoreSound st) (h : st.capacity ≠ 0) : EpisodesSound st :=
  ((storeSound_iff h).mp hs).1

theorem EpisodesSound.updateMarks (h : EpisodesSound st) (n : Idx) : StoreSound (updateMarks n st).1 := by
  obtain ⟨⟨hcap, hfill, hread, hwrite, htotals, hmarks, hcount⟩, hunder, hover⟩ := h
  rw [updateMarks_eq n hcap]
  refine (storeSound_iff ?_).mpr ⟨⟨⟨hcap, hfill, hread, hwrite, htotals, hmarks, hcount⟩, hunder, hover⟩, rfl, rfl⟩
  exact hcap

namespace RingSound

theorem samples_pos (h : RingSound st) : 0 < st.samples :=
  Nat.mul_pos (Nat.pos_of_ne_zero h.configured) (by decide)

theorem writePos_lt (h : RingSound st) : st.writePos < st.samples :=
  h.writePos ▸ Nat.mod_lt _ h.samples_pos

theorem withTail (h : RingSound st) {xs : List Sample} (hroom : st.fill + xs.length ≤ st.samples) :
    RingSound (st.withTail xs) where
  configured := h.configured
  fill := Nat.le_trans (Nat.le_of_eq (Store.withTail_fill st xs)) hroom
  readPos := h.readPos
  writePos := by
    rw [Store.withTail_fill, ← Nat.add_assoc]
    exact (congrArg (fun n => (n + xs.length) % st.samples) h.writePos).trans (Nat.mod_add_mod ..)
  totals := by
    rw [Store.withTail_fill, BitVec.ofNat_add, ← BitVec.add_assoc]
    exact congrArg (· + BitVec.ofNat 32 xs.length) h.totals
  marks := h.marks
  underruns := h.underruns

/-- Samples that leave the head are delivered or discarded, so the totals still agree with the fill. -/
theorem withoutHead (h : RingSound st) {k : Nat} (hk : k ≤ st.fill) {delivered discarded : BitVec 32}
    (hcount : delivered + discarded = st.delivered + st.discarded + BitVec.ofNat 32 k) :
    RingSound { st.withoutHead k with delivered := delivered, discarded := discarded } where
  configured := h.configured
  fill := Nat.le_trans (Nat.le_of_eq (Store.withoutHead_fill st k)) (Nat.le_trans (Nat.sub_le ..) h.fill)
  readPos := Nat.mod_lt _ h.samples_pos
  writePos := by
    refine h.writePos.trans ?_
    show _ = ((st.readPos + k) % st.samples + (st.withoutHead k).fill) % st.samples
    rw [Store.withoutHead_fill, Nat.mod_add_mod, Nat.add_assoc, Nat.add_sub_cancel' hk]
  totals := by
    refine h.totals.trans ?_
    show _ = delivered + discarded + BitVec.ofNat 32 (st.withoutHead k).fill
    rw [Store.withoutHead_fill, hcount, BitVec.add_assoc (x := st.delivered + st.discarded), ← BitVec.ofNat_add,
      Nat.add_sub_cancel' hk]
  marks := h.marks
  underruns := h.underruns

theorem handedOut (h : RingSound st) {k : Nat} (hk : k ≤ st.fill) : RingSound (st.handedOut k) :=
  h.withoutHead hk (by ac_rfl)

theorem discardedHead (h : RingSound st) {k : Nat} (hk : k ≤ st.fill) : RingSound (st.discardedHead k) :=
  h.withoutHead hk (by ac_rfl)

end RingSound

end Sys2Proof.Machine
end

section
/-! The operations on one store keep its record sound: a frame boundary's read and write sides, and the host transfers. -/

namespace Sys2Proof.Machine

variable {st : Store}

/-! ### Episodes begun and ended (R109, R111) -/

/-- The counts of samples not taken and of underruns, and the episodes, stand beside the ring. -/
theorem RingSound.withCounts (h : RingSound st) {underruns : Nat} (hn : underruns ≤ 65535) (rejected : BitVec 32)
    (underrunEp overrunEp : Bool) :
    RingSound
      { st with rejected := rejected, underruns := underruns, underrunEp := underrunEp, overrunEp := overrunEp } :=
  ⟨h.configured, h.fill, h.readPos, h.writePos, h.totals, h.marks, hn⟩

theorem RingSound.endUnderrun (h : RingSound st) (hover : st.overrunEp = true → st.fill = st.samples) :
    EpisodesSound (endUnderrun st) := by
  rw [endUnderrun_eq]
  exact ⟨h.withCounts h.underruns st.rejected _ st.overrunEp, by simp [Store.fill], hover⟩

theorem RingSound.endOverrun (h : RingSound st) (hunder : st.underrunEp = true → st.fill = 0) :
    EpisodesSound (endOverrun st) := by
  rw [endOverrun_eq]
  refine ⟨h.withCounts h.underruns st.rejected st.underrunEp _, hunder, fun he => ?_⟩
  exact Nat.le_antisymm h.fill (of_decide_eq_true (Bool.and_eq_true_iff.mp he).2)

namespace EpisodesSound

theorem withTail (h : EpisodesSound st) {xs : List Sample} (hroom : st.fill + xs.length ≤ st.samples) :
    EpisodesSound (endUnderrun (st.withTail xs)) := by
  refine (h.ring.withTail hroom).endUnderrun fun he => ?_
  have hfull := h.overrun he
  simp only [Store.withTail_fill, Store.withTail_samples]
  omega

theorem handedOut (h : EpisodesSound st) {k : Nat} (hk : k ≤ st.fill) :
    EpisodesSound (endOverrun (st.handedOut k)) :=
  (h.ring.handedOut hk).endOverrun fun he => by rw [Store.handedOut_fill, h.underrun he, Nat.zero_sub]

theorem discardedHead (h : EpisodesSound st) {k : Nat} (hk : k ≤ st.fill) :
    EpisodesSound (endOverrun (st.discardedHead k)) :=
  (h.ring.discardedHead hk).endOverrun fun he => by rw [Store.discardedHead_fill, h.underrun he, Nat.zero_sub]

/-! ### Service at a frame boundary (R108 to R112) -/

theorem readSide (h : EpisodesSound st) (n : Idx) : EpisodesSound (readSide n st).1 := by
  have hcount : (if st.underruns < 65535 then st.underruns + 1 else st.underruns) ≤ 65535 := by
    have := h.ring.underruns
    split <;> omega
  unfold Machine.readSide
  by_cases hempty : st.ring = []
  · rw [deliverSample_nil hempty]
    exact ⟨h.ring.withCounts hcount st.rejected true st.overrunEp, fun _ => by simp [Store.fill, hempty], h.overrun⟩
  · obtain ⟨x, xs, hring⟩ := List.exists_cons_of_ne_nil hempty
    rw [deliverSample_cons h.ring.readPos hring]
    exact h.handedOut (by simp [Store.fill, hring])

/-- A full ring under the policy that keeps new samples: the head is discarded and the sample takes the room. -/
theorem acceptSample_discardSample (h : EpisodesSound st) (hfull : st.fill = st.samples) (x : Sample) :
    acceptSample (discardSample st) x = (st.discardedHead 1).withTail [x] := by
  have hpos : 0 < st.fill := hfull ▸ h.ring.samples_pos
  rw [discardSample_eq h.ring.readPos (List.length_pos_iff.mp hpos)]
  exact acceptSample_eq (h.ring.discardedHead hpos).writePos_lt x

theorem writeSide (h : EpisodesSound st) (n : Idx) (x : Sample) : EpisodesSound (writeSide n x st).1 := by
  unfold Machine.writeSide
  split
  · next hroom =>
    rw [acceptSample_eq h.ring.writePos_lt]
    exact h.withTail hroom
  · next hroom =>
    have hpos := h.ring.samples_pos
    have hfull : st.fill = st.samples := Nat.le_antisymm h.ring.fill (Nat.not_lt.mp hroom)
    have hunder : st.underrunEp ≠ true := fun he => by have := h.underrun he; omega
    dsimp only
    split
    · have hleft : (st.discardedHead 1).fill + [x].length = st.samples := by
        rw [Store.discardedHead_fill, List.length_singleton]; omega
      have hring := (h.ring.discardedHead (show 1 ≤ st.fill by omega)).withTail (Nat.le_of_eq hleft)
      rw [acceptSample_discardSample h hfull]
      exact ⟨hring.withCounts hring.underruns st.rejected st.underrunEp true, fun he => absurd he hunder,
        fun _ => (Store.withTail_fill ..).trans hleft⟩
    · exact ⟨h.ring.withCounts h.ring.underruns _ st.underrunEp true, h.underrun, fun _ => hfull⟩

theorem writeAndMark (h : EpisodesSound st) (n : Idx) (offered : Option Sample) :
    StoreSound (writeAndMark n offered st).1 := by
  cases offered with
  | none => exact h.updateMarks n
  | some x => exact (h.writeSide n x).updateMarks n

/-! ### Host transfers (R114 to R116) -/

theorem writeRun (h : EpisodesSound st) (xs : List Sample) : EpisodesSound (endUnderrun (writeRun xs st).1) := by
  have := h.ring.fill
  rw [writeRun_eq h.ring.writePos_lt]
  exact h.withTail (by rw [List.length_take]; omega)

theorem readRun (h : EpisodesSound st) (k : Nat) : EpisodesSound (endOverrun (readRun k st).1) := by
  rw [readRun_eq h.ring.readPos]
  exact h.handedOut (Nat.min_le_right ..)

theorem flushRing (h : EpisodesSound st) : EpisodesSound (endOverrun (flushRing st.ring st)) := by
  rw [flushRing_eq h.ring.readPos]
  exact h.discardedHead (Nat.le_refl _)

end EpisodesSound

/-! ### The shape of a store, which none of these changes -/

namespace SameShape

variable {a b c : Store}

theorem refl (st : Store) : SameShape st st := ⟨rfl, rfl, rfl, rfl, rfl⟩

theorem trans (h : SameShape a b) (h' : SameShape b c) : SameShape a c :=
  ⟨h'.capacity.trans h.capacity, h'.keepNew.trans h.keepNew, h'.lowMark.trans h.lowMark,
    h'.highMark.trans h.highMark, h'.binding.trans h.binding⟩

theorem acceptSample (st : Store) (x : Sample) : SameShape st (acceptSample st x) := ⟨rfl, rfl, rfl, rfl, rfl⟩

theorem dropHead (st : Store) : SameShape st (dropHead st) := by
  unfold Machine.dropHead; split <;> exact ⟨rfl, rfl, rfl, rfl, rfl⟩

theorem discardSample (st : Store) : SameShape st (discardSample st) := by
  have h := dropHead st
  unfold Machine.discardSample
  split
  · exact refl st
  · exact ⟨h.capacity, h.keepNew, h.lowMark, h.highMark, h.binding⟩

theorem deliverSample {x : Sample} {st' : Store} (h : deliverSample st = some (x, st')) : SameShape st st' := by
  have hdrop := dropHead st
  unfold Machine.deliverSample at h
  split at h
  · cases h
  · obtain ⟨-, rfl⟩ := Prod.mk.inj (Option.some.inj h)
    exact ⟨hdrop.capacity, hdrop.keepNew, hdrop.lowMark, hdrop.highMark, hdrop.binding⟩

theorem endUnderrun (st : Store) : SameShape st (endUnderrun st) := by
  rw [endUnderrun_eq]; exact ⟨rfl, rfl, rfl, rfl, rfl⟩

theorem endOverrun (st : Store) : SameShape st (endOverrun st) := by
  rw [endOverrun_eq]; exact ⟨rfl, rfl, rfl, rfl, rfl⟩

theorem updateMarks (n : Idx) (st : Store) : SameShape st (updateMarks n st).1 := by
  rw [updateMarks_spec]; split <;> exact ⟨rfl, rfl, rfl, rfl, rfl⟩

theorem readSide (n : Idx) (st : Store) : SameShape st (readSide n st).1 := by
  unfold Machine.readSide
  split
  · next hsome => exact (deliverSample hsome).trans (endOverrun _)
  · exact ⟨rfl, rfl, rfl, rfl, rfl⟩

theorem writeSide (n : Idx) (x : Sample) (st : Store) : SameShape st (writeSide n x st).1 := by
  have hnew := (discardSample st).trans (acceptSample _ x)
  unfold Machine.writeSide
  split
  · exact (acceptSample st x).trans (endUnderrun _)
  · dsimp only
    split
    · exact ⟨hnew.capacity, hnew.keepNew, hnew.lowMark, hnew.highMark, hnew.binding⟩
    · exact ⟨rfl, rfl, rfl, rfl, rfl⟩

theorem writeAndMark (n : Idx) (offered : Option Sample) (st : Store) : SameShape st (writeAndMark n offered st).1 := by
  cases offered with
  | none => exact updateMarks n st
  | some x => exact (writeSide n x st).trans (updateMarks n _)

theorem writeRun (xs : List Sample) (st : Store) : SameShape st (writeRun xs st).1 := by
  obtain ⟨-, -, -, -, h⟩ := writeRun_spec xs st
  exact h

theorem readRun (k : Nat) (st : Store) : SameShape st (readRun k st).1 := by
  obtain ⟨-, -, -, -, h⟩ := readRun_spec k st
  exact h

theorem flushRing (xs : List Sample) (st : Store) : SameShape st (flushRing xs st) := by
  induction xs generalizing st with
  | nil => exact refl st
  | cons x xs ih => exact (discardSample st).trans (ih _)

end SameShape

end Sys2Proof.Machine
end

section
/-! The records of the stores but for their bindings, as one projection of the state, and the operations that leave it as it is:
all but CONFIGURE_STORE, the host transfers, a frame boundary and a reset. -/

namespace Sys2Proof.Machine

/-- The records of chapter 6 but for the bindings, which routes make and end (R107). -/
def State.storeRecords (s : State) : Quad Store := .tab fun n => { s.store n with binding := none }

theorem storeRecords_eq_iff {s t : State} :
    t.storeRecords = s.storeRecords ↔
      ∀ n, ({ t.store n with binding := none } : Store) = { s.store n with binding := none } := by
  refine ⟨fun h n => ?_, fun h => Quad.ext_get fun n => ?_⟩
  · simpa [State.storeRecords] using congrArg (fun q => q.get n) h
  · simpa [State.storeRecords] using h n

/-! ### The shared operations -/

@[simp] theorem post_storeRecords (s : State) (es : List Emit) : (s.post es).storeRecords = s.storeRecords := by
  rw [State.post_eq]; rfl

@[simp] theorem postRuns_storeRecords (s : State) (order : Picks) (runs : List (List Emit)) :
    (s.postRuns order runs).storeRecords = s.storeRecords := by
  rw [State.postRuns_eq]; rfl

@[simp] theorem setPort_storeRecords (s : State) (p : Port) (u : PortUnit) :
    (s.setPort p u).storeRecords = s.storeRecords := rfl

@[simp] theorem moveInLanes_storeRecords (s : State) (after : Quad Lane) :
    (s.moveInLanes after).storeRecords = s.storeRecords := by
  rw [moveInLanes_eq]; rfl

@[simp] theorem setBinding_storeRecords (s : State) (n : Idx) (b : Option Domain) :
    (s.setStore n { s.store n with binding := b }).storeRecords = s.storeRecords := by
  refine storeRecords_eq_iff.mpr fun m => ?_
  rw [State.store_setStore]
  split
  · next h => rw [h]
  · rfl

/-! ### Work at one route -/

@[simp] theorem unbindStore_storeRecords (s : State) (r : Route) (n : Idx) :
    (s.unbindStore r n).storeRecords = s.storeRecords := by
  unfold State.unbindStore
  split
  · exact setBinding_storeRecords ..
  · rfl

@[simp] theorem bindStore_storeRecords (s : State) (r : Route) (n : Idx) :
    (s.bindStore r n).storeRecords = s.storeRecords := by
  unfold State.bindStore
  dsimp only
  split
  · exact setBinding_storeRecords ..
  · rfl

@[simp] theorem eraseRoute_storeRecords (s : State) (r : Route) : (s.eraseRoute r).storeRecords = s.storeRecords := by
  unfold State.eraseRoute
  simp only [unbindStore_storeRecords]
  cases ho : r.owner <;> rfl

@[simp] theorem createRoute_storeRecords (s : State) (p : Port) (r : Route) :
    (s.createRoute p r).storeRecords = s.storeRecords := by
  unfold State.createRoute
  simp only [bindStore_storeRecords]
  rfl

theorem releaseHolder_storeRecords (c : ReleaseCause) (tell : Bool) (r : Route) (s : State) :
    (releaseHolder c tell r s).st.storeRecords = s.storeRecords :=
  eraseRoute_storeRecords (s.freeSink r.source r.sink) r

theorem releaseWaiter_storeRecords (c : ReleaseCause) (tell : Bool) (r : Route) (s : State) :
    (releaseWaiter c tell r s).st.storeRecords = s.storeRecords :=
  eraseRoute_storeRecords (s.leaveClaim r.sink r.id) r

theorem carryOut_storeRecords (o : Pending) (r : Route) (s : State) :
    (carryOut o r s).st.storeRecords = s.storeRecords := by
  unfold carryOut
  split
  · exact releaseHolder_storeRecords ..
  · split
    · rfl
    · exact releaseHolder_storeRecords ..

theorem suspend_storeRecords (c : SuspendCause) (first : Causes) (r : Route) (s : State) :
    (suspend c first r s).st.storeRecords = s.storeRecords := by
  unfold suspend
  dsimp only
  split
  case h_6 => exact carryOut_storeRecords ..
  case h_5 => split <;> rfl
  all_goals rfl

theorem resume_storeRecords (c : SuspendCause) (r : Route) (s : State) :
    (resume c r s).st.storeRecords = s.storeRecords := by
  unfold resume
  split
  · split <;> rfl
  · rfl

theorem closeHolder_storeRecords (r : Route) (s : State) : (closeHolder r s).st.storeRecords = s.storeRecords := by
  unfold closeHolder
  split
  · rfl
  · split
    · exact releaseHolder_storeRecords ..
    · exact releaseHolder_storeRecords ..
    all_goals rfl

theorem preemptHolder_storeRecords (r : Route) (s : State) :
    (preemptHolder r s).st.storeRecords = s.storeRecords := by
  unfold preemptHolder
  split
  case h_3 | h_4 => exact carryOut_storeRecords ..
  all_goals rfl

theorem boundaryAt_storeRecords (r : Route) (s : State) : (boundaryAt r s).st.storeRecords = s.storeRecords := by
  unfold boundaryAt
  dsimp only
  split
  case h_5 =>
    split
    · exact carryOut_storeRecords ..
    · rfl
  all_goals rfl

theorem forRoutes_storeRecords {f : Route → State → Eff} (hf : ∀ r s, (f r s).st.storeRecords = s.storeRecords)
    (ids : List Nat) (s : State) : (forRoutes f ids s).1.storeRecords = s.storeRecords :=
  forRoutes_keeps (P := fun t => t.storeRecords = s.storeRecords) (fun r t ht => (hf r t).trans ht) ids s rfl

theorem takeRouteReport_storeRecords {f : Route → State → Eff} (hf : ∀ r s, (f r s).st.storeRecords = s.storeRecords)
    (same : RouteReport → Bool) (rep : RouteReport) (concerns : Route → Bool) (order : Picks) (s : State) :
    (takeRouteReport same rep concerns f order s).storeRecords = s.storeRecords := by
  unfold takeRouteReport
  split
  · rfl
  · exact (postRuns_storeRecords ..).trans (forRoutes_storeRecords hf ..)

/-! ### The close of a session, and the reset of a port (R126, R130, R153) -/

theorem close_storeRecords (s : State) (p : Port) : (s.close p).eff.st.storeRecords = s.storeRecords :=
  (forRoutes_storeRecords closeHolder_storeRecords ..).trans
    (forRoutes_storeRecords (releaseWaiter_storeRecords .disconnected true) ..)

theorem portResetEffects_storeRecords (s : State) (p : Port) : (s.portResetEffects p).storeRecords = s.storeRecords := by
  unfold State.portResetEffects
  dsimp only
  split <;> simp [close_storeRecords]

theorem settle_storeRecords (s : State) (p : Port) : (s.settle p).storeRecords = s.storeRecords := by
  unfold State.settle
  split
  · exact portResetEffects_storeRecords s p
  · rfl

/-! ### Host commands on sessions, routes and lanes -/

theorem openSession_storeRecords (p : Port) (s : State) : (openSession p s).st.storeRecords = s.storeRecords := by
  unfold openSession; dsimp only; split <;> rfl

theorem placeRoute_storeRecords (p : Port) (pl : Placement) (r : Route) (s : State) :
    (placeRoute p pl r s).st.storeRecords = s.storeRecords := by
  have hmade := createRoute_storeRecords s p r
  cases pl with
  | holder => exact hmade
  | preempt h => exact (preemptHolder_storeRecords ..).trans hmade
  | wait => exact hmade
  | sinkBusy => rfl
  | queueFull => rfl

theorem connect_storeRecords (p : Port) (a : ConnectBytes) (s : State) :
    (connect p a s).st.storeRecords = s.storeRecords := by
  rcases connect_cases p a s with ⟨_, he⟩ | ⟨_, _, _, _, _, -, he⟩
  · rw [he]; rfl
  · rw [he]; exact placeRoute_storeRecords ..

/-- A command that names a route leaves the stores to its meaning at that route. -/
theorem withRoute_storeRecords {s : State} {k : Route → Reply} (id : Nat)
    (hk : ∀ r, (k r).st.storeRecords = s.storeRecords) : (withRoute id s k).st.storeRecords = s.storeRecords := by
  rcases withRoute_cases id s k with ⟨_, he⟩ | ⟨r, -, he⟩
  · rw [he]; rfl
  · rw [he]; exact hk r

theorem disconnect_storeRecords (p : Port) (id : Nat) (s : State) :
    (disconnect p id s).st.storeRecords = s.storeRecords := by
  refine withRoute_storeRecords id fun r => ?_
  dsimp only
  split
  · rfl
  · split
    · exact releaseWaiter_storeRecords .disconnected false r s
    · exact releaseHolder_storeRecords .disconnected false r s
    · exact releaseHolder_storeRecords .disconnected false r s
    all_goals rfl

theorem setGain_storeRecords (p : Port) (id target : Nat) (s : State) :
    (setGain p id target s).st.storeRecords = s.storeRecords := by
  unfold setGain
  split
  · rfl
  · refine withRoute_storeRecords id fun r => ?_
    split
    · rfl
    · split <;> rfl

theorem adopt_storeRecords (p : Port) (id : Nat) (s : State) : (adopt p id s).st.storeRecords = s.storeRecords := by
  refine withRoute_storeRecords id fun r => ?_
  dsimp only
  split
  · rfl
  · split <;> rfl

theorem changeLane_storeRecords (s : State) (l : LaneId) (after : Lane) :
    (s.changeLane l after).storeRecords = s.storeRecords := by
  cases l with
  | input i => rw [State.changeLane, reportSources_eq]; rfl
  | output i => unfold State.changeLane State.countDraw; dsimp only; split <;> rfl

theorem releaseLane_storeRecords (s : State) (l : LaneId) : (s.releaseLane l).st.storeRecords = s.storeRecords :=
  (forRoutes_storeRecords (releaseHolder_storeRecords .endpointDisabled true) ..).trans
    (forRoutes_storeRecords (releaseWaiter_storeRecords .endpointDisabled true) ..)

theorem applyLane_storeRecords (p : Port) (l : LaneId) (enable : Bool) (d : Domain) (s : State) :
    (applyLane p l enable d s).st.storeRecords = s.storeRecords := by
  refine (changeLane_storeRecords ..).trans ?_
  split
  · exact releaseLane_storeRecords s l
  · rfl

theorem setLane_storeRecords (p : Port) (lb eb db : Byte) (s : State) :
    (setLane p lb eb db s).st.storeRecords = s.storeRecords := by
  unfold setLane
  dsimp only
  split
  · split
    · rfl
    · split
      · rfl
      · exact applyLane_storeRecords ..
  · rfl

/-! ### Host commands on tags, rates, trims, meters and queues -/

theorem setTag_storeRecords (p : Port) (b : Byte) (chars : List Byte) (s : State) :
    (setTag p b chars s).st.storeRecords = s.storeRecords := by
  unfold setTag
  dsimp only
  split
  · rfl
  · next e _ =>
    split
    · rfl
    · cases e <;> rfl

theorem rateSet_storeRecords (s : State) (d : Domain) (code : Nat) : (s.rateSet d code).storeRecords = s.storeRecords := by
  unfold State.rateSet State.withRate
  cases d <;> dsimp only <;> repeat' split
  all_goals rfl

theorem setRate_storeRecords (db cb fb : Byte) (s : State) : (setRate db cb fb s).st.storeRecords = s.storeRecords := by
  rcases setRate_cases db cb fb s with ⟨_, he⟩ | ⟨d, -, he⟩
  · rw [he]; rfl
  · rw [he]; exact rateSet_storeRecords ..

theorem setTrim_storeRecords (p : Port) (b : Byte) (trim : Nat) (s : State) :
    (setTrim p b trim s).st.storeRecords = s.storeRecords := by
  unfold setTrim
  split
  · rfl
  · rcases withChannel_cases b s _ with ⟨_, he⟩ | ⟨_, _, he⟩ <;> (rw [he]; rfl)

theorem resetMeter_storeRecords (b : Byte) (s : State) : (resetMeter b s).st.storeRecords = s.storeRecords := by
  unfold resetMeter
  rcases withChannel_cases b s _ with ⟨_, he⟩ | ⟨_, _, he⟩ <;> (rw [he]; rfl)

theorem ackEvents_storeRecords (p : Port) (n : Nat) (s : State) : (ackEvents p n s).st.storeRecords = s.storeRecords := by
  unfold ackEvents; dsimp only; split <;> rfl

/-! ### Host commands that only read -/

theorem describeEndpoint_storeRecords (b : Byte) (s : State) :
    (describeEndpoint b s).st.storeRecords = s.storeRecords := by
  unfold describeEndpoint; split <;> rfl

theorem findTag_storeRecords (chars : List Byte) (s : State) : (findTag chars s).st.storeRecords = s.storeRecords := by
  unfold findTag; dsimp only; repeat' split
  all_goals rfl

theorem queryDomain_storeRecords (db : Byte) (s : State) : (queryDomain db s).st.storeRecords = s.storeRecords := by
  unfold queryDomain; split <;> rfl

theorem queryRoute_storeRecords (id : Nat) (s : State) : (queryRoute id s).st.storeRecords = s.storeRecords :=
  withRoute_storeRecords id fun _ => rfl

theorem listRoutes_storeRecords (kind value : Byte) (s : State) :
    (listRoutes kind value s).st.storeRecords = s.storeRecords := by
  unfold listRoutes; split <;> rfl

theorem querySink_storeRecords (b : Byte) (s : State) : (querySink b s).st.storeRecords = s.storeRecords := by
  unfold querySink
  rcases withSink_cases b s _ with ⟨_, he⟩ | ⟨_, he⟩ <;> (rw [he]; rfl)

theorem queryStore_storeRecords (nb : Byte) (s : State) : (queryStore nb s).st.storeRecords = s.storeRecords := by
  unfold queryStore; split <;> rfl

theorem readEvents_storeRecords (p : Port) (n : Nat) (s : State) : (readEvents p n s).st.storeRecords = s.storeRecords := by
  unfold readEvents; split <;> rfl

/-! ### The other transactions of a port, the clock domains, reports at the lanes, and the Sink Arbiter -/

theorem execFetch_storeRecords (p : Port) (n : Nat) (s : State) :
    ∃ t, execFetch p n s = .next t ∧ t.storeRecords = s.storeRecords := by
  refine ⟨_, rfl, ?_⟩
  split <;> rfl

theorem execFrameError_storeRecords (p : Port) (bytes : List Byte) (s : State) :
    ∃ t, execFrameError p bytes s = .next t ∧ t.storeRecords = s.storeRecords := by
  refine ⟨_, rfl, ?_⟩
  split
  · dsimp only
    split <;> exact settle_storeRecords s p
  · rfl

theorem execFrameDiscarded_storeRecords (p : Port) (bytes : List Byte) (s : State) :
    ∃ t, execFrameDiscarded p bytes s = .next t ∧ t.storeRecords = s.storeRecords := by
  refine ⟨_, rfl, ?_⟩
  split
  · split <;> rfl
  · rfl

theorem execPortReset_storeRecords (p : Port) (s : State) :
    ∃ t, execPortReset p s = .next t ∧ t.storeRecords = s.storeRecords := by
  refine ⟨_, rfl, ?_⟩
  dsimp only
  split
  · rfl
  all_goals exact portResetEffects_storeRecords _ p

theorem execPortResetRelease_storeRecords (p : Port) (s : State) :
    ∃ t, execPortResetRelease p s = .next t ∧ t.storeRecords = s.storeRecords := by
  refine ⟨_, rfl, ?_⟩
  split <;> rfl

theorem execCommandCompletes_storeRecords (p : Port) (s : State) :
    ∃ t, execCommandCompletes p s = .next t ∧ t.storeRecords = s.storeRecords := by
  refine ⟨_, rfl, ?_⟩
  split
  · split
    · exact portResetEffects_storeRecords s p
    · rfl
  all_goals rfl

theorem lockedState_storeRecords {s t : State} {d : Domain} (h : lockedState s d = some t) :
    t.storeRecords = s.storeRecords := by
  unfold lockedState at h
  cases d <;> dsimp only at h <;> split at h <;> cases h <;> rfl

theorem execLockComplete_storeRecords (d : Domain) (s : State) :
    ∃ t, execLockComplete d s = .next t ∧ t.storeRecords = s.storeRecords := by
  refine ⟨_, rfl, ?_⟩
  split
  · rfl
  · split
    · rfl
    · next s1 hlocked =>
      exact (post_storeRecords (s1.reportStart d) _).trans (lockedState_storeRecords hlocked : s1.storeRecords = _)

theorem fxClockFound_storeRecords (r : Rate) (s : State) : (fxClockFound r s).storeRecords = s.storeRecords := by
  unfold fxClockFound
  dsimp only
  split
  · exact post_storeRecords ..
  · split <;> exact post_storeRecords ..
  all_goals rfl

theorem execClockFound_storeRecords (r : Rate) (s : State) :
    ∃ t, execClockFound r s = .next t ∧ t.storeRecords = s.storeRecords := by
  refine ⟨_, rfl, ?_⟩
  split
  · rfl
  · split
    · exact fxClockFound_storeRecords ..
    · split
      · exact fxClockFound_storeRecords ..
      · rfl

theorem execClockLost_storeRecords (s : State) :
    ∃ t, execClockLost s = .next t ∧ t.storeRecords = s.storeRecords := by
  refine ⟨_, rfl, ?_⟩
  split
  · rfl
  · dsimp only
    split
    · exact post_storeRecords ..
    · exact post_storeRecords ..
    all_goals rfl

theorem execHoldoverExpired_storeRecords (s : State) :
    ∃ t, execHoldoverExpired s = .next t ∧ t.storeRecords = s.storeRecords := by
  refine ⟨_, rfl, ?_⟩
  split
  · exact post_storeRecords ..
  · rfl

theorem execLaneDomainStop_storeRecords (d : Domain) (order : Picks) (s : State) :
    ∃ t, execLaneDomainStop d order s = .next t ∧ t.storeRecords = s.storeRecords := by
  refine ⟨_, rfl, ?_⟩
  split
  · rfl
  · exact (postRuns_storeRecords ..).trans (moveInLanes_storeRecords ..)

theorem execLaneDomainStart_storeRecords (d : Domain) (s : State) :
    ∃ t, execLaneDomainStart d s = .next t ∧ t.storeRecords = s.storeRecords := by
  refine ⟨_, rfl, ?_⟩
  split <;> rfl

theorem execGrant_storeRecords (t : Sink) (s : State) :
    ∃ u, execGrant t s = .next u ∧ u.storeRecords = s.storeRecords := by
  refine ⟨_, rfl, ?_⟩
  split
  · rfl
  · split
    · rfl
    · exact post_storeRecords ..

theorem execWaitTimeout_storeRecords (id : Nat) (s : State) :
    ∃ t, execWaitTimeout id s = .next t ∧ t.storeRecords = s.storeRecords := by
  refine ⟨_, rfl, ?_⟩
  split
  · rfl
  · split
    · exact (post_storeRecords ..).trans (releaseWaiter_storeRecords ..)
    · rfl

theorem tick_storeRecords (s : State) : s.tick.storeRecords = s.storeRecords := by
  unfold State.tick
  split <;> rfl

end Sys2Proof.Machine
end

section
/-! Every command keeps the stores sound, a frame boundary because a bound store is configured, and so does a period of XREF. -/

namespace Sys2Proof.Machine

variable {s t : State}

/-! ### Sound stores by their records (R102) -/

/-- A record is sound whatever its binding. -/
theorem StoreSound.withBinding {st : Store} (h : StoreSound st) (b : Option Domain) :
    StoreSound { st with binding := b } := h

/-- Stores that are each sound, at the capacities of stores that share the memory. -/
theorem StoresSound.of_capacities (h : StoresSound s) (hsound : ∀ n, StoreSound (t.store n))
    (hcap : ∀ n, (t.store n).capacity = (s.store n).capacity) : StoresSound t := by
  refine ⟨fun n _ => hsound n, ?_⟩
  have hsum := h.2
  have h0 : t.stores.q0.capacity = s.stores.q0.capacity := hcap .i0
  have h1 : t.stores.q1.capacity = s.stores.q1.capacity := hcap .i1
  have h2 : t.stores.q2.capacity = s.stores.q2.capacity := hcap .i2
  have h3 : t.stores.q3.capacity = s.stores.q3.capacity := hcap .i3
  omega

theorem StoresSound.store (h : StoresSound s) (n : Idx) : StoreSound (s.store n) := h.1 n (mem_allIdx n)

theorem StoresSound.of_storeRecords (h : StoresSound s) (he : t.storeRecords = s.storeRecords) : StoresSound t := by
  have hrec := storeRecords_eq_iff.mp he
  refine h.of_capacities (fun n => ?_) fun n => by simpa using congrArg Store.capacity (hrec n)
  have hn : StoreSound { t.store n with binding := none } := hrec n ▸ (h.store n).withBinding none
  exact hn.withBinding (t.store n).binding

theorem StoresSound.next_of_storeRecords {o : Outcome} (h : StoresSound s)
    (ho : ∃ t, o = .next t ∧ t.storeRecords = s.storeRecords) : ∃ t, o = .next t ∧ StoresSound t :=
  ho.imp fun _ ht => ht.imp_right h.of_storeRecords

/-- One store changed but in its shape. -/
theorem StoresSound.setStore (h : StoresSound s) {n : Idx} {st : Store} (hst : StoreSound st)
    (hshape : SameShape (s.store n) st) : StoresSound (s.setStore n st) := by
  refine h.of_capacities (fun m => ?_) fun m => ?_ <;> rw [State.store_setStore] <;> split
  · exact hst
  · exact h.store m
  · next hm => rw [hshape.capacity, hm]
  · rfl

/-! ### CONFIGURE_STORE (R105, R106) -/

/-- The empty store of R106 is sound. -/
theorem configured_storeSound (st : Store) {cap low high : Nat} (keepNew : Bool)
    (hmarks : cap ≠ 0 → low < high ∧ high ≤ cap * blockSamples) : StoreSound (configured st cap keepNew low high) := by
  by_cases hcap : cap = 0
  · simp [configured, Store.reset, StoreSound, Store.fill, Store.samples, hcap]
  · have hpos : 0 < cap * blockSamples := Nat.mul_pos (Nat.pos_of_ne_zero hcap) (by decide)
    have hhigh : high ≠ 0 := by have := hmarks hcap; omega
    simp [configured, Store.reset, StoreSound, Store.fill, Store.samples, hcap, hpos, hmarks hcap, hhigh]

/-- After device reset every store is empty and unconfigured, as a CONFIGURE_STORE of no blocks leaves it (R103). -/
theorem reset_storesSound : StoresSound State.reset := by
  refine ⟨fun n _ => ?_, by decide⟩
  rw [State.store, State.reset, Quad.get_const]
  exact configured_storeSound Store.reset (cap := 0) (low := 0) (high := 0) false (fun h => absurd rfl h)

/-- The blocks of one store beside those of the others. -/
theorem capacity_sum_setStore (s : State) (n : Idx) (st : Store) :
    let q := (s.setStore n st).stores
    q.q0.capacity + q.q1.capacity + q.q2.capacity + q.q3.capacity = s.otherBlocks n + st.capacity := by
  cases n <;> simp [State.otherBlocks, State.store, Quad.set, Quad.get, Idx.all] <;> omega

/-- A CONFIGURE_STORE is refused, or it fits the memory, its marks are in order, and the store is the empty one of R106. -/
theorem configureStore_cases (p : Port) (nb cap pol : Byte) (low high : Nat) (s : State) :
    (∃ res, configureStore p nb cap pol low high s = refuse res s) ∨
    ∃ n keepNew, s.otherBlocks n + cap.toNat ≤ maxBlocks ∧
      (cap.toNat ≠ 0 → low < high ∧ high ≤ cap.toNat * blockSamples) ∧
      (configureStore p nb cap pol low high s).st =
        s.setStore n (configured (s.store n) cap.toNat keepNew low high) := by
  unfold configureStore
  split
  · next n keepNew _ _ =>
    split
    · exact .inl ⟨_, rfl⟩
    split
    · exact .inl ⟨_, rfl⟩
    split
    · exact .inl ⟨_, rfl⟩
    next hmemory =>
    split
    · exact .inl ⟨_, rfl⟩
    next hmarks =>
    exact .inr ⟨n, keepNew, Nat.not_lt.mp hmemory, fun hcap => Decidable.not_not.mp fun h => hmarks ⟨hcap, h⟩, rfl⟩
  · exact .inl ⟨_, rfl⟩

theorem configureStore_storesSound (p : Port) (nb cap pol : Byte) (low high : Nat) (h : StoresSound s) :
    StoresSound (configureStore p nb cap pol low high s).st := by
  rcases configureStore_cases p nb cap pol low high s with ⟨_, he⟩ | ⟨n, keepNew, hmemory, hmarks, he⟩
  · rw [he]; exact h
  · rw [he]
    refine ⟨fun m _ => ?_, Nat.le_trans (Nat.le_of_eq (capacity_sum_setStore ..)) hmemory⟩
    rw [State.store_setStore]
    split
    · exact configured_storeSound _ _ hmarks
    · exact h.store m

/-! ### Host transfers (R114 to R116) -/

theorem storeWrite_storesSound (nb count : Byte) (xs : List Sample) (h : StoresSound s) :
    StoresSound (storeWrite nb count xs s).st := by
  unfold storeWrite
  split
  · exact h
  next n _ =>
  split
  · exact h
  dsimp only
  split
  · exact h
  next hcap =>
  split
  · exact h
  · exact h.setStore ((((h.store n).episodes hcap).writeRun xs).updateMarks n)
      (((SameShape.writeRun xs _).trans (.endUnderrun _)).trans (.updateMarks n _))

theorem storeRead_storesSound (nb count : Byte) (h : StoresSound s) : StoresSound (storeRead nb count s).st := by
  unfold storeRead
  split
  · exact h
  next n _ =>
  split
  · exact h
  dsimp only
  split
  · exact h
  next hcap =>
  split
  · exact h
  · exact h.setStore ((((h.store n).episodes hcap).readRun count.toNat).updateMarks n)
      (((SameShape.readRun count.toNat _).trans (.endOverrun _)).trans (.updateMarks n _))

theorem flushStore_storesSound (nb : Byte) (h : StoresSound s) : StoresSound (flushStore nb s).st := by
  unfold flushStore
  split
  · exact h
  next n _ =>
  dsimp only
  split
  · exact h
  next hcap =>
  exact h.setStore (((h.store n).episodes hcap).flushRing.updateMarks n)
    (((SameShape.flushRing _ _).trans (.endOverrun _)).trans (.updateMarks n _))

/-! ### A frame boundary (R107 to R112) -/

/-- A bound store is used by a route, so it is configured (R107). -/
theorem StoresBound.configured_of_served (hb : StoresBound s) {d : Domain} {n : Idx} (h : served s d n = true) :
    (s.store n).capacity ≠ 0 := by
  obtain ⟨hused, hbound⟩ := hb n (mem_allIdx n)
  have hbind : (s.store n).binding = some d := by simpa [served] using h
  obtain ⟨r, hr, hu⟩ := hbound (by simp [hbind])
  exact (hused r hr hu).2

/-- The read side of a store delivers, or leaves the store as it is. -/
theorem readSides_cases (s : State) (d : Domain) (n : Idx) :
    ((readSides s d).get n).1 = (readSide n (s.store n)).1 ∨ ((readSides s d).get n).1 = s.store n := by
  unfold readSides
  rw [Quad.get_tab]
  split
  · exact .inl rfl
  · exact .inr rfl

/-- The read side of a store that is not served does nothing. -/
theorem readSides_unserved {d : Domain} {n : Idx} (h : served s d n = false) :
    ((readSides s d).get n).1 = s.store n := by
  simp [readSides, h]

/-- Between the read sides and the write sides the stores change in their bindings alone. -/
theorem beforeWrites_storeRecords (s : State) (d : Domain) (rx : Quad LaneRx) :
    (beforeWrites s d rx).1.storeRecords = (s.boundaryStart d rx).storeRecords :=
  forRoutes_storeRecords boundaryAt_storeRecords ..

theorem boundaryStart_store (s : State) (d : Domain) (rx : Quad LaneRx) (n : Idx) :
    (s.boundaryStart d rx).store n = ((readSides s d).get n).1 :=
  Quad.get_tab (fun n => ((readSides s d).get n).1) n

/-- Until the write sides a store has its read side behind it, in its record as far as the binding leaves it. -/
theorem beforeWrites_store (s : State) (d : Domain) (rx : Quad LaneRx) (n : Idx) :
    ∃ b, (beforeWrites s d rx).1.store n = { ((readSides s d).get n).1 with binding := b } := by
  have hrec := storeRecords_eq_iff.mp (beforeWrites_storeRecords s d rx) n
  rw [boundaryStart_store] at hrec
  exact ⟨_, congrArg (fun st : Store => { st with binding := ((beforeWrites s d rx).1.store n).binding }) hrec⟩

theorem EpisodesSound.withBinding {st : Store} (h : EpisodesSound st) (b : Option Domain) :
    EpisodesSound { st with binding := b } :=
  ⟨⟨h.ring.configured, h.ring.fill, h.ring.readPos, h.ring.writePos, h.ring.totals, h.ring.marks, h.ring.underruns⟩,
    h.underrun, h.overrun⟩

theorem boundary_store (s : State) (d : Domain) (rx : Quad LaneRx) (order : Picks) (n : Idx) :
    (boundary s d rx order).store n = ((writeSides s d rx (beforeWrites s d rx).1).get n).1 := by
  obtain ⟨_, he⟩ := boundary_eq s d rx order
  rw [he]
  exact Quad.get_tab (fun n => ((writeSides s d rx (beforeWrites s d rx).1).get n).1) n

theorem boundary_storesSound (hb : StoresBound s) (h : StoresSound s) (d : Domain) (rx : Quad LaneRx) (order : Picks) :
    StoresSound (boundary s d rx order) := by
  refine h.of_capacities (fun n => ?_) fun n => ?_
  all_goals
    rw [boundary_store, writeSides, Quad.get_tab]
    obtain ⟨b, hnow⟩ := beforeWrites_store s d rx n
    rw [hnow]
    split
  · next hserved =>
    have hst := (h.store n).episodes (hb.configured_of_served hserved)
    have hread : EpisodesSound ((readSides s d).get n).1 := by
      rcases readSides_cases s d n with he | he
      · rw [he]; exact hst.readSide n
      · rw [he]; exact hst
    exact (hread.withBinding b).writeAndMark n _
  · next hserved =>
    rw [readSides_unserved (Bool.not_eq_true _ ▸ hserved)]
    exact (h.store n).withBinding b
  · refine (SameShape.writeAndMark n _ _).capacity.trans ?_
    rcases readSides_cases s d n with he | he
    · rw [he]; exact (SameShape.readSide n (s.store n)).capacity
    · rw [he]
  · next hserved => rw [readSides_unserved (Bool.not_eq_true _ ▸ hserved)]

/-! ### Every command -/

/-- A taken frame keeps the stores sound when its own meaning does. -/
theorem takeCommand_storesSound {p : Port} {seq : Byte} {params : List Byte} {lengthOk needsSession : Bool}
    {own : State → Reply} (hown : ∀ u, StoresSound u → StoresSound (own u).st) (h : StoresSound s) :
    StoresSound (takeCommand p seq params lengthOk needsSession own s) := by
  have hsettled : StoresSound (s.settle p) := h.of_storeRecords (settle_storeRecords s p)
  have hreply : StoresSound
      (if !lengthOk then refuse .badLength (s.settle p)
        else if needsSession && !((s.settle p).session p).isOpen then refuse .noSession (s.settle p)
        else own (s.settle p)).st := by
    split
    · exact hsettled
    · split
      · exact hsettled
      · exact hown _ hsettled
  unfold takeCommand
  split
  · dsimp only
    split
    · exact hsettled.of_storeRecords rfl
    all_goals exact hreply.of_storeRecords (post_storeRecords ..)
  · exact h

/-- A taken frame whose meaning reaches no store but in its binding. -/
theorem takeCommand_storesSound_of_records {p : Port} {seq : Byte} {params : List Byte} {lengthOk needsSession : Bool}
    {own : State → Reply} (hown : ∀ u, (own u).st.storeRecords = u.storeRecords) (h : StoresSound s) :
    StoresSound (takeCommand p seq params lengthOk needsSession own s) :=
  takeCommand_storesSound (fun u hu => hu.of_storeRecords (hown u)) h

theorem exec_storesSound (c : Instr) (hb : StoresBound s) (h : StoresSound s) :
    ∃ t, exec c s = .next t ∧ StoresSound t := by
  cases c with
  | openSession p seq params => exact ⟨_, rfl, takeCommand_storesSound_of_records (openSession_storeRecords p) h⟩
  | closeSession p seq params =>
    exact ⟨_, rfl, takeCommand_storesSound_of_records (fun u => close_storeRecords u p) h⟩
  | describeEndpoint p seq params =>
    exact ⟨_, rfl, takeCommand_storesSound_of_records (describeEndpoint_storeRecords _) h⟩
  | setTag p seq params => exact ⟨_, rfl, takeCommand_storesSound_of_records (setTag_storeRecords p _ _) h⟩
  | findTag p seq params => exact ⟨_, rfl, takeCommand_storesSound_of_records (findTag_storeRecords _) h⟩
  | setLane p seq params => exact ⟨_, rfl, takeCommand_storesSound_of_records (setLane_storeRecords p _ _ _) h⟩
  | setRate p seq params => exact ⟨_, rfl, takeCommand_storesSound_of_records (setRate_storeRecords _ _ _) h⟩
  | queryDomain p seq params => exact ⟨_, rfl, takeCommand_storesSound_of_records (queryDomain_storeRecords _) h⟩
  | connect p seq params =>
    refine ⟨_, rfl, takeCommand_storesSound_of_records (fun u => ?_) h⟩
    split
    · exact connect_storeRecords ..
    · rfl
  | disconnect p seq params => exact ⟨_, rfl, takeCommand_storesSound_of_records (disconnect_storeRecords p _) h⟩
  | setGain p seq params => exact ⟨_, rfl, takeCommand_storesSound_of_records (setGain_storeRecords p _ _) h⟩
  | adopt p seq params => exact ⟨_, rfl, takeCommand_storesSound_of_records (adopt_storeRecords p _) h⟩
  | queryRoute p seq params => exact ⟨_, rfl, takeCommand_storesSound_of_records (queryRoute_storeRecords _) h⟩
  | listRoutes p seq params => exact ⟨_, rfl, takeCommand_storesSound_of_records (listRoutes_storeRecords _ _) h⟩
  | querySink p seq params => exact ⟨_, rfl, takeCommand_storesSound_of_records (querySink_storeRecords _) h⟩
  | setTrim p seq params => exact ⟨_, rfl, takeCommand_storesSound_of_records (setTrim_storeRecords p _ _) h⟩
  | resetMeter p seq params => exact ⟨_, rfl, takeCommand_storesSound_of_records (resetMeter_storeRecords _) h⟩
  | configureStore p seq params =>
    exact ⟨_, rfl, takeCommand_storesSound (fun _ hu => configureStore_storesSound p _ _ _ _ _ hu) h⟩
  | storeWrite p seq params => exact ⟨_, rfl, takeCommand_storesSound (fun _ hu => storeWrite_storesSound _ _ _ hu) h⟩
  | storeRead p seq params => exact ⟨_, rfl, takeCommand_storesSound (fun _ hu => storeRead_storesSound _ _ hu) h⟩
  | flushStore p seq params => exact ⟨_, rfl, takeCommand_storesSound (fun _ hu => flushStore_storesSound _ hu) h⟩
  | queryStore p seq params => exact ⟨_, rfl, takeCommand_storesSound_of_records (queryStore_storeRecords _) h⟩
  | readEvents p seq params => exact ⟨_, rfl, takeCommand_storesSound_of_records (readEvents_storeRecords p _) h⟩
  | ackEvents p seq params => exact ⟨_, rfl, takeCommand_storesSound_of_records (ackEvents_storeRecords p _) h⟩
  | fetch p clocked => exact h.next_of_storeRecords (execFetch_storeRecords p clocked s)
  | frameError p bytes => exact h.next_of_storeRecords (execFrameError_storeRecords p bytes s)
  | unknownCommand p code seq params =>
    refine ⟨_, rfl, ?_⟩
    split
    · exact takeCommand_storesSound_of_records (fun _ => rfl) h
    · exact h
  | frameDiscarded p bytes => exact h.next_of_storeRecords (execFrameDiscarded_storeRecords p bytes s)
  | portReset p => exact h.next_of_storeRecords (execPortReset_storeRecords p s)
  | portResetRelease p => exact h.next_of_storeRecords (execPortResetRelease_storeRecords p s)
  | deviceReset => exact ⟨_, rfl, reset_storesSound.of_storeRecords rfl⟩
  | lockComplete d => exact h.next_of_storeRecords (execLockComplete_storeRecords d s)
  | clockFound r => exact h.next_of_storeRecords (execClockFound_storeRecords r s)
  | clockLost => exact h.next_of_storeRecords (execClockLost_storeRecords s)
  | holdoverExpired => exact h.next_of_storeRecords (execHoldoverExpired_storeRecords s)
  | frameBoundary d rx order =>
    refine ⟨_, rfl, ?_⟩
    split
    · exact boundary_storesSound hb h d rx order
    · exact h
  | routeTableDomainStop d order =>
    exact ⟨_, rfl, h.of_storeRecords (takeRouteReport_storeRecords (fun r u => suspend_storeRecords _ _ r u) ..)⟩
  | routeTableDomainStart d order =>
    exact ⟨_, rfl, h.of_storeRecords (takeRouteReport_storeRecords (resume_storeRecords _) ..)⟩
  | laneDomainStop d order => exact h.next_of_storeRecords (execLaneDomainStop_storeRecords d order s)
  | laneDomainStart d => exact h.next_of_storeRecords (execLaneDomainStart_storeRecords d s)
  | sourcesDown lane order =>
    exact ⟨_, rfl, h.of_storeRecords (takeRouteReport_storeRecords (fun r u => suspend_storeRecords _ _ r u) ..)⟩
  | sourcesUp lane order =>
    exact ⟨_, rfl, h.of_storeRecords (takeRouteReport_storeRecords (resume_storeRecords _) ..)⟩
  | grant t => exact h.next_of_storeRecords (execGrant_storeRecords t s)
  | waitTimeout id => exact h.next_of_storeRecords (execWaitTimeout_storeRecords id s)
  | commandCompletes p => exact h.next_of_storeRecords (execCommandCompletes_storeRecords p s)
  | resetRelease => exact ⟨_, rfl, h.of_storeRecords rfl⟩

theorem step_storesSound (hb : StoresBound s) (h : StoresSound s) : ∃ t, step s = .next t ∧ StoresSound t := by
  unfold step
  split
  · exact ⟨_, rfl, h.of_storeRecords (tick_storeRecords s)⟩
  · next c rest _ => exact exec_storesSound (s := { s with pending := rest }) c hb (h.of_storeRecords rfl)

/-- Settles O10: of each store by its ring, its episodes and its marks, and of every command by the stores it reaches. -/
theorem storesSoundKept : Obligations.StoresSoundKept := by
  intro s t _ hb h hstep
  obtain ⟨u, hu, hsound⟩ := step_storesSound hb h
  obtain rfl : u = t := Host.Outcome.next.inj (hu.symm.trans hstep)
  exact hsound

end Sys2Proof.Machine
end

section
/-! CONFIGURE_STORE on a port that serves a session: its checks in order, and the empty store an accepted one leaves. -/

namespace Sys2Proof.Machine

variable {s : State} {p : Port}

/-! ### The bytes that name a store and a policy (Table 10.3) -/

theorem store?_eq_none {nb : Byte} (h : 3 < nb.toNat) : store? nb = none := by
  match hn : nb.toNat, h with
  | n + 4, _ => simp [store?, hn, Idx.ofNat?]

/-! ### The checks in order (R105) -/

/-- A frame of CONFIGURE_STORE with its seven parameters is judged by the checks of R105. -/
theorem exec_configureStore (h : s.serving p = true) (seq nb cap pol lh ll hh hl : Byte) :
    exec (.configureStore p seq [nb, cap, pol, lh, ll, hh, hl]) s =
      .next (((configureStore p nb cap pol (nat2 lh ll) (nat2 hh hl) s).st.post
          (configureStore p nb cap pol (nat2 lh ll) (nat2 hh hl) s).evs).replied p seq
        (configureStore p nb cap pol (nat2 lh ll) (nat2 hh hl) s).result
        (configureStore p nb cap pol (nat2 lh ll) (nat2 hh hl) s).payload 11) :=
  congrArg Host.Outcome.next (takeCommand_serving h seq [nb, cap, pol, lh, ll, hh, hl] true
    (configureStore p nb cap pol (nat2 lh ll) (nat2 hh hl)))

theorem exec_configureStore_refused (h : s.serving p = true) (seq : Byte) {nb cap pol lh ll hh hl : Byte} {res : Result}
    (hrefuse : configureStore p nb cap pol (nat2 lh ll) (nat2 hh hl) s = refuse res s) :
    exec (.configureStore p seq [nb, cap, pol, lh, ll, hh, hl]) s = .next (s.replied p seq res [] 11) := by
  rw [exec_configureStore h, hrefuse]; simp

/-- A store number, a policy or a capacity that is none is refused before anything else. -/
theorem configureStore_bad {nb cap pol : Byte} (h : 3 < nb.toNat ∨ 64 < cap.toNat ∨ 1 < pol.toNat) (low high : Nat) :
    configureStore p nb cap pol low high s = refuse .badArgument s := by
  unfold configureStore
  split
  · next hn hpol =>
    rcases h with h | h | h
    · simp [store?_eq_none h] at hn
    · exact if_pos h
    · simp [yesNo?_eq_none h] at hpol
  · rfl

section Checks

variable {nb cap pol : Byte} {n : Idx} {keep : Bool} {low high : Nat}
variable (hn : store? nb = some n) (hpol : yesNo? pol = some keep) (hcap : cap.toNat ≤ 64)
include hn hpol hcap

/-- A store whose input is the sink, or whose output is the source, of any route in any state. -/
theorem configureStore_busy (hused : s.routes.any (fun r => usesStore r n) = true) :
    configureStore p nb cap pol low high s = refuse .storeBusy s := by
  simp [configureStore, hn, hpol, maxBlocks, Nat.not_lt.mpr hcap, hused]

variable (hfree : s.routes.any (fun r => usesStore r n) = false)
include hfree

theorem configureStore_noMemory (hmem : 64 < s.otherBlocks n + cap.toNat) :
    configureStore p nb cap pol low high s = refuse .noMemory s := by
  simp [configureStore, hn, hpol, maxBlocks, Nat.not_lt.mpr hcap, hfree, hmem]

variable (hmem : s.otherBlocks n + cap.toNat ≤ 64)
include hmem

theorem configureStore_badMarks (hmarks : cap.toNat ≠ 0 ∧ ¬(low < high ∧ high ≤ cap.toNat * 256)) :
    configureStore p nb cap pol low high s = refuse .badArgument s := by
  simp only [configureStore, hn, hpol, maxBlocks, blockSamples, Nat.not_lt.mpr hcap, hfree, Nat.not_lt.mpr hmem]
  exact if_pos hmarks

theorem configureStore_accepted (hmarks : ¬(cap.toNat ≠ 0 ∧ ¬(low < high ∧ high ≤ cap.toNat * 256))) :
    configureStore p nb cap pol low high s =
      accept (s.setStore n (configured (s.store n) cap.toNat keep low high))
        [{ aud := .everyOpenBut p, ev := .storeConfigured n cap.toNat }]
        ([nb, cap, pol] ++ bytes2 (configured (s.store n) cap.toNat keep low high).lowMark ++
          bytes2 (configured (s.store n) cap.toNat keep low high).highMark ++
          [byteOf (64 - (s.otherBlocks n + cap.toNat))]) := by
  have hleft : (s.setStore n (configured (s.store n) cap.toNat keep low high)).freeBlocks =
      64 - (s.otherBlocks n + cap.toNat) :=
    congrArg (64 - ·) (capacity_sum_setStore ..)
  rw [← hleft]
  simp only [configureStore, hn, hpol, maxBlocks, blockSamples, Nat.not_lt.mpr hcap, hfree, Nat.not_lt.mpr hmem]
  exact if_neg hmarks

end Checks

/-! ### The empty store (R106) -/

/-- The record of an accepted CONFIGURE_STORE of an unbound store; both marks are 0 at a capacity of 0. -/
theorem configured_unbound {st : Store} (h : st.binding = none) (cap : Byte) (keep : Bool) (low high : Nat) :
    configured st cap.toNat keep low high =
      { capacity := cap.toNat, keepNew := keep
        lowMark := (if cap = 0#8 then (0, 0) else (low, high)).1
        highMark := (if cap = 0#8 then (0, 0) else (low, high)).2
        writePos := 0, readPos := 0, ring := [], binding := none, underrunEp := false, overrunEp := false,
        aboveLow := false, atHigh := false, accepted := 0, delivered := 0, discarded := 0, rejected := 0,
        underruns := 0 } := by
  unfold configured Store.reset
  simp only [byte_toNat_eq_zero_iff, h]
  split <;> rfl

/-- The blocks of the other stores, added up one by one. -/
theorem otherBlocks_eq_foldl (s : State) (n : Idx) :
    (Idx.all.filter (· ≠ n)).foldl (fun k m => k + (s.store m).capacity) 0 = s.otherBlocks n := by
  cases n <;> simp [State.otherBlocks, Idx.all, Nat.add_assoc]

/-- Settles O57, by the checks of R105 in order and the record of R106. -/
theorem configureStoreEmptiesStore : Obligations.ConfigureStoreEmptiesStore := by
  refine ⟨fun s p seq nb cap pol lh ll hh hl h hbad => exec_configureStore_refused h seq (configureStore_bad hbad ..), ?_⟩
  intro s p seq nb cap pol lh ll hh hl n keep h hn hpol hcap low high used others i
  have hothers : others = s.otherBlocks n := otherBlocks_eq_foldl s n
  have hzero : cap ≠ 0#8 ↔ cap.toNat ≠ 0 := (not_congr (byte_toNat_eq_zero_iff cap)).symm
  refine ⟨fun hused => ?_, fun hfree hmem => ?_, fun hfree hmem hne hmarks => ?_, fun hfree hmem hmarks hunbound => ?_⟩
  · exact exec_configureStore_refused h seq (configureStore_busy hn hpol hcap hused)
  · exact exec_configureStore_refused h seq (configureStore_noMemory hn hpol hcap hfree (hothers ▸ hmem))
  · exact exec_configureStore_refused h seq
      (configureStore_badMarks hn hpol hcap hfree (hothers ▸ hmem) ⟨hzero.mp hne, hmarks⟩)
  · have hgood : ¬(cap.toNat ≠ 0 ∧ ¬(low < high ∧ high ≤ cap.toNat * 256)) :=
      fun ⟨hne, hbad⟩ => hbad (hmarks (hzero.mpr hne))
    intro marks
    have haccept := configureStore_accepted (p := p) (low := nat2 lh ll) (high := nat2 hh hl) hn hpol hcap hfree
      (hothers ▸ hmem) hgood
    rw [hothers, exec_configureStore h, haccept, configured_unbound hunbound]
    rfl

end Sys2Proof.Machine
end

section
/-! STORE_WRITE, STORE_READ and FLUSH_STORE on a port that serves a session: their checks in order, and the store, the events and
the response of an accepted one. -/

namespace Sys2Proof.Machine

variable {s : State} {p : Port}

/-! ### The frames (R156) -/

/-- A run of whole samples carries one for each three bytes (R163). -/
theorem samplesOf_length {k : Nat} {bytes : List Byte} (h : bytes.length = 3 * k) : (samplesOf bytes).length = k := by
  induction k generalizing bytes with
  | zero => rw [List.length_eq_zero_iff.mp h]; rfl
  | succ k ih =>
    match bytes, h with
    | _ :: _ :: _ :: rest, h => exact congrArg (· + 1) (ih (bytes := rest) (by simp at h; omega))

/-- A frame of STORE_WRITE with the bytes its count asks for is judged by the checks of R114. -/
theorem exec_storeWrite (h : s.serving p = true) (seq nb c : Byte) {bytes : List Byte}
    (hcount : bytes.length = 3 * c.toNat) (hmax : bytes.length ≤ 248) :
    exec (.storeWrite p seq ([nb, c] ++ bytes)) s =
      .next (((storeWrite nb c (samplesOf bytes) s).st.post (storeWrite nb c (samplesOf bytes) s).evs).replied p seq
        (storeWrite nb c (samplesOf bytes) s).result (storeWrite nb c (samplesOf bytes) s).payload (6 + bytes.length)) := by
  have hlength : storeWriteLength ([nb, c] ++ bytes) = true := by simp [storeWriteLength, hcount]; omega
  have hbytes : 4 + ([nb, c] ++ bytes).length = 6 + bytes.length := by simp; omega
  refine congrArg Host.Outcome.next ?_
  rw [hlength, takeCommand_serving h, hbytes]
  rfl

theorem exec_storeRead (h : s.serving p = true) (seq nb c : Byte) :
    exec (.storeRead p seq [nb, c]) s =
      .next (((storeRead nb c s).st.post (storeRead nb c s).evs).replied p seq (storeRead nb c s).result
        (storeRead nb c s).payload 6) :=
  congrArg Host.Outcome.next (takeCommand_serving h seq [nb, c] true (storeRead nb c))

theorem exec_flushStore (h : s.serving p = true) (seq nb : Byte) :
    exec (.flushStore p seq [nb]) s =
      .next (((flushStore nb s).st.post (flushStore nb s).evs).replied p seq (flushStore nb s).result
        (flushStore nb s).payload 5) :=
  congrArg Host.Outcome.next (takeCommand_serving h seq [nb] true (flushStore nb))

theorem exec_storeWrite_refused (h : s.serving p = true) (seq : Byte) {nb c : Byte} {bytes : List Byte} {res : Result}
    (hcount : bytes.length = 3 * c.toNat) (hmax : bytes.length ≤ 248)
    (hrefuse : storeWrite nb c (samplesOf bytes) s = refuse res s) :
    exec (.storeWrite p seq ([nb, c] ++ bytes)) s = .next (s.replied p seq res [] (6 + bytes.length)) := by
  rw [exec_storeWrite h seq nb c hcount hmax, hrefuse]; simp

theorem exec_storeRead_refused (h : s.serving p = true) (seq : Byte) {nb c : Byte} {res : Result}
    (hrefuse : storeRead nb c s = refuse res s) :
    exec (.storeRead p seq [nb, c]) s = .next (s.replied p seq res [] 6) := by
  rw [exec_storeRead h, hrefuse]; simp

theorem exec_flushStore_refused (h : s.serving p = true) (seq : Byte) {nb : Byte} {res : Result}
    (hrefuse : flushStore nb s = refuse res s) :
    exec (.flushStore p seq [nb]) s = .next (s.replied p seq res [] 5) := by
  rw [exec_flushStore h, hrefuse]; simp

/-! ### The checks in order (R114 to R116) -/

/-- A count of 0 or of more than 80 samples. -/
theorem badCount_iff (c : Byte) : (c = 0#8 ∨ 80 < c.toNat) ↔ (c.toNat = 0 ∨ 80 < c.toNat) := by
  rw [byte_toNat_eq_zero_iff]

theorem storeWrite_bad {nb c : Byte} (h : 3 < nb.toNat ∨ c = 0#8 ∨ 80 < c.toNat) (xs : List Sample) :
    storeWrite nb c xs s = refuse .badArgument s := by
  unfold storeWrite
  split
  · rfl
  · next hn => exact if_pos ((badCount_iff c).mp (h.resolve_left fun hnb => by simp [store?_eq_none hnb] at hn))

theorem storeRead_bad {nb c : Byte} (h : 3 < nb.toNat ∨ c = 0#8 ∨ 80 < c.toNat) :
    storeRead nb c s = refuse .badArgument s := by
  unfold storeRead
  split
  · rfl
  · next hn => exact if_pos ((badCount_iff c).mp (h.resolve_left fun hnb => by simp [store?_eq_none hnb] at hn))

theorem flushStore_bad {nb : Byte} (h : 3 < nb.toNat) : flushStore nb s = refuse .badArgument s := by
  simp only [flushStore, store?_eq_none h]

theorem feedCount_ne_zero_iff (s : State) (e : Source) :
    s.feedCount e ≠ 0 ↔ s.routes.any (fun r => r.source == e && r.state.holds) = true := by
  rw [State.feedCount, ← Nat.pos_iff_ne_zero, List.countP_pos_iff, List.any_eq_true]

section Checks

variable {nb c : Byte} {n : Idx} (hn : store? nb = some n)
include hn

theorem flushStore_unconfigured (hcap : (s.store n).capacity = 0) :
    flushStore nb s = refuse .storeUnconfigured s := by
  simp [flushStore, hn, hcap]

variable (hc : ¬(c.toNat = 0 ∨ 80 < c.toNat))
include hc

theorem storeWrite_unconfigured (hcap : (s.store n).capacity = 0) (xs : List Sample) :
    storeWrite nb c xs s = refuse .storeUnconfigured s := by
  simp only [storeWrite, hn, if_neg hc]
  exact if_pos hcap

theorem storeRead_unconfigured (hcap : (s.store n).capacity = 0) : storeRead nb c s = refuse .storeUnconfigured s := by
  simp only [storeRead, hn, if_neg hc]
  exact if_pos hcap

variable (hcap : (s.store n).capacity ≠ 0)
include hcap

theorem storeWrite_busy (hheld : (s.sinkEntry (.storeIn n)).holder ≠ none) (xs : List Sample) :
    storeWrite nb c xs s = refuse .storeBusy s := by
  simp only [storeWrite, hn, if_neg hc, if_neg hcap]
  exact if_pos (Option.isSome_iff_ne_none.mpr hheld)

theorem storeRead_busy (hfed : s.feedCount (.storeOut n) ≠ 0) : storeRead nb c s = refuse .storeBusy s := by
  simp only [storeRead, hn, if_neg hc, if_neg hcap]
  exact if_pos hfed

end Checks

/-! ### The store after a transfer (R104, R109, R111, R112) -/

namespace Store

/-- The record after the first `k` samples of a write are taken. -/
def afterWrite (st : Store) (xs : List Sample) (k : Nat) : Store :=
  { st with
    ring := st.ring ++ xs.take k
    writePos := (st.writePos + k) % (st.capacity * 256)
    underrunEp := st.underrunEp && (st.ring ++ xs.take k).isEmpty
    aboveLow := decide (st.lowMark < (st.ring ++ xs.take k).length)
    atHigh := decide (st.highMark ≤ (st.ring ++ xs.take k).length)
    accepted := st.accepted + BitVec.ofNat 32 k }

/-- The record after `k` samples are read. -/
def afterRead (st : Store) (k : Nat) : Store :=
  { st with
    ring := st.ring.drop k
    readPos := (st.readPos + k) % (st.capacity * 256)
    overrunEp := false
    aboveLow := decide (st.lowMark < (st.ring.drop k).length)
    atHigh := decide (st.highMark ≤ (st.ring.drop k).length)
    delivered := st.delivered + BitVec.ofNat 32 k }

/-- The record after a flush. -/
def afterFlush (st : Store) : Store :=
  { st with
    ring := []
    readPos := st.writePos
    overrunEp := false
    aboveLow := false
    atHigh := false
    discarded := st.discarded + BitVec.ofNat 32 st.ring.length }

end Store

section Transfers

variable {st : Store} (h : EpisodesSound st) (n : Idx)
include h

/-- A write of as many samples as fit. -/
theorem updateMarks_writeRun (xs : List Sample) :
    let k := min xs.length (st.samples - st.fill)
    updateMarks n (endUnderrun (writeRun xs st).1) =
      (st.afterWrite xs k, markEvents n st (st.ring ++ xs.take k).length) := by
  intro k
  have hk : (xs.take k).length = k := by rw [List.length_take]; omega
  have hrun : (writeRun xs st).1 = st.withTail (xs.take k) := by
    rw [writeRun_eq h.ring.writePos_lt, List.take_eq_take_min, Nat.min_comm]
  rw [hrun, endUnderrun_eq, updateMarks_eq n (by exact h.ring.configured)]
  simp only [Store.withTail, hk]
  rfl

/-- A read of at least one sample leaves room, as a ring with none to give has it. -/
theorem updateMarks_readRun {c : Nat} (hc : 1 ≤ c) :
    let k := min c st.fill
    updateMarks n (endOverrun (readRun c st).1) = (st.afterRead k, markEvents n st (st.ring.drop k).length) := by
  intro k
  have hpos := h.ring.samples_pos
  have hfill := h.ring.fill
  have hroom : (st.handedOut k).fill < (st.handedOut k).samples := by
    rw [Store.handedOut_fill, Store.handedOut_samples]; omega
  rw [readRun_eq h.ring.readPos, endOverrun, if_pos hroom, updateMarks_eq n (by exact h.ring.configured)]
  rfl

theorem updateMarks_flushRing :
    updateMarks n (endOverrun (flushRing st.ring st)) = (st.afterFlush, markEvents n st 0) := by
  have hpos := h.ring.samples_pos
  have hhigh : st.highMark ≠ 0 := by have := h.ring.marks; omega
  have hwrite : (st.readPos + st.ring.length) % st.samples = st.writePos := h.ring.writePos.symm
  have hroom : (st.discardedHead st.fill).fill < (st.discardedHead st.fill).samples := by
    rw [Store.discardedHead_fill, Store.discardedHead_samples]; omega
  rw [flushRing_eq h.ring.readPos, endOverrun, if_pos hroom, updateMarks_eq n (by exact h.ring.configured)]
  simp [Store.discardedHead, Store.withoutHead, Store.afterFlush, Store.fill, markEvents, hwrite, hhigh]

end Transfers

section Accepted

variable {nb c : Byte} {n : Idx} (hn : store? nb = some n) (hcap : (s.store n).capacity ≠ 0)
  (hst : EpisodesSound (s.store n))
include hn hcap hst

theorem flushStore_accepted :
    flushStore nb s =
      accept (s.setStore n (s.store n).afterFlush) (storeEmits (markEvents n (s.store n) 0))
        ([nb] ++ bytes2 (s.store n).ring.length) := by
  simp only [flushStore, hn, if_neg hcap, updateMarks_flushRing hst]
  rfl

variable (hc : ¬(c.toNat = 0 ∨ 80 < c.toNat))
include hc

theorem storeWrite_accepted (hfree : (s.sinkEntry (.storeIn n)).holder = none) {xs : List Sample}
    (hxs : xs.length = c.toNat) :
    let st := s.store n
    let k := min c.toNat (st.capacity * 256 - st.ring.length)
    let fill := (st.ring ++ xs.take k).length
    storeWrite nb c xs s =
      accept (s.setStore n (st.afterWrite xs k)) (storeEmits (markEvents n st fill)) ([nb, byteOf k] ++ bytes2 fill) := by
  obtain ⟨htaken, -⟩ := writeRun_spec xs (s.store n)
  have hheld : ¬s.sinkHeld (.storeIn n) = true := by simp [State.sinkHeld, hfree]
  simp only [storeWrite, hn, if_neg hc, if_neg hcap, if_neg hheld, updateMarks_writeRun hst, htaken, hxs]
  rfl

theorem storeRead_accepted (hfree : s.feedCount (.storeOut n) = 0) :
    let st := s.store n
    let k := min c.toNat st.ring.length
    let fill := (st.ring.drop k).length
    storeRead nb c s =
      accept (s.setStore n (st.afterRead k)) (storeEmits (markEvents n st fill))
        ([nb, c, byteOf k] ++ bytes2 fill ++ bytes4 (st.afterRead k).delivered.toNat
          ++ (st.ring.take k).flatMap sampleBytes) := by
  intro st k fill
  obtain ⟨htaken, -⟩ := readRun_spec c.toNat (s.store n)
  have htake : (s.store n).ring.take c.toNat = st.ring.take k := List.take_eq_take_min
  have hlength : (st.ring.take k).length = k := by rw [List.length_take]; omega
  simp only [storeRead, hn, if_neg hc, if_neg hcap, if_neg (not_not_intro hfree),
    updateMarks_readRun hst n (show 1 ≤ c.toNat by omega), htaken, htake, hlength]
  rfl

end Accepted

/-- A transfer changes one store, the queues and the port, and tells every open port of the marks. -/
theorem transfer_leaves (s : State) (p : Port) (seq : Byte) (n : Idx) (st : Store) (evs : List Event)
    (payload : List Byte) (len : Nat) :
    let t := ((s.setStore n st).post (storeEmits evs)).replied p seq .ok payload len
    ((∀ m, m ≠ n → t.store m = s.store m) ∧ (∀ q, t.queue q = s.queueAfter q evs) ∧
      { t with stores := s.stores, queues := s.queues, ports := s.ports } = s) ∧
    t.store n = st ∧ (t.port p).holder = .executing { seq := seq, result := .ok, payload := payload } := by
  intro t
  have hstore (m : Idx) : t.store m = if m = n then st else s.store m := by
    show ((s.setStore n st).post (storeEmits evs)).store m = _
    rw [State.post_eq]
    exact State.store_setStore s n m st
  refine ⟨⟨fun m hm => by rw [hstore, if_neg hm], fun q => ?_, ?_⟩, by rw [hstore, if_pos rfl], ?_⟩
  · refine (State.queue_post_eq_queueAfter (s.setStore n st) (storeEmits evs) q).trans ?_
    rw [storeEmits, eventsFor_everyOpen, List.map_id']
    rfl
  · show { ((s.setStore n st).post (storeEmits evs)) with stores := s.stores, queues := s.queues, ports := s.ports } = s
    rw [State.post_eq]
    rfl
  · simp [t, State.replied, State.port]

/-- Settles O58, by the checks of R114 to R116 in order and the record after each transfer. -/
theorem hostTransfersMoveSamples : Obligations.HostTransfersMoveSamples := by
  refine ⟨?_, fun s p seq c nb h hc => exec_storeRead_refused h seq (storeRead_bad (.inr hc)), ?_⟩
  · intro s p seq nb c bytes h hcount hmax write read flush
    have hwrite {res : Result} (hr : storeWrite nb c (samplesOf bytes) s = refuse res s) : write res :=
      exec_storeWrite_refused h seq hcount hmax hr
    have hread {res : Result} (hr : storeRead nb c s = refuse res s) : read res := exec_storeRead_refused h seq hr
    refine ⟨fun hbad => ⟨hwrite (storeWrite_bad hbad _), hread (storeRead_bad hbad)⟩,
      fun hbad => exec_flushStore_refused h seq (flushStore_bad hbad), fun n hn => ⟨fun hcap => ?_, fun h1 h80 => ?_⟩⟩
    · exact exec_flushStore_refused h seq (flushStore_unconfigured hn hcap)
    · have hc : ¬(c.toNat = 0 ∨ 80 < c.toNat) := by omega
      exact ⟨fun hcap => ⟨hwrite (storeWrite_unconfigured hn hc hcap _), hread (storeRead_unconfigured hn hc hcap)⟩,
        fun hcap hheld => hwrite (storeWrite_busy hn hc hcap hheld _),
        fun hcap hfed => hread (storeRead_busy hn hc hcap ((feedCount_ne_zero_iff ..).mpr hfed))⟩
  · intro s p seq nb n h hn hcap hsound st full onlyStore
    have hst : EpisodesSound st := hsound.episodes hcap
    refine ⟨?_, ?_, ?_⟩
    · intro c bytes h1 h80 hcount hfree k ring
      refine ⟨_, exec_storeWrite h seq nb c hcount (by omega), ?_⟩
      rw [storeWrite_accepted hn hcap hst (by omega) hfree (samplesOf_length hcount)]
      exact transfer_leaves ..
    · intro c h1 h80 hfree k ring
      refine ⟨_, exec_storeRead h seq nb c, ?_⟩
      rw [storeRead_accepted hn hcap hst (by omega) hfree]
      obtain ⟨honly, hstore, hholder⟩ := transfer_leaves s p seq n (st.afterRead k) (markEvents n st ring.length)
        ([nb, c, byteOf k] ++ bytes2 ring.length ++ bytes4 (st.afterRead k).delivered.toNat
          ++ (st.ring.take k).flatMap sampleBytes) 6
      exact ⟨honly, hstore, hstore.symm ▸ hholder⟩
    · refine ⟨_, exec_flushStore h seq nb, ?_⟩
      rw [flushStore_accepted hn hcap hst]
      exact transfer_leaves ..

end Sys2Proof.Machine
end

section
/-! The event queue of a port: the three ways it takes an event, and ACK_EVENTS on a port that serves a session, which
removes the entry named and those ahead of it. -/

namespace Sys2Proof.Machine

variable {s : State} {p : Port} {q : EventQueue}

/-! ### An event taken (R138) -/

namespace EventQueue

/-- A LOST marker that is the last entry is the marker at the tail. -/
theorem marker?_eq_some {front : List Entry} {k : BitVec 16} {c : Nat}
    (h : q.entries = front ++ [{ seq := k, ev := .lost c }]) : q.marker? = some (k, c) := by
  simp only [marker?, h, List.getLast?_concat]

theorem put_of_no_marker (h : q.marker? = none) (ev : Event) :
    q.put ev = if q.entries.length < 31 then q.push ev else q.push (.lost 1) := by
  simp only [put, h]
  rfl

/-- The marker at the tail counts on, keeping its number, and stays at 65535. -/
theorem put_of_marker {front : List Entry} {k : BitVec 16} {c : Nat}
    (h : q.entries = front ++ [{ seq := k, ev := .lost c }]) (hc : c ≤ 65535) (ev : Event) :
    q.put ev = { q with entries := front ++ [{ seq := k, ev := .lost (min 65535 (c + 1)) }] } := by
  have hcount : (if c < 65535 then c + 1 else c) = min 65535 (c + 1) := by split <;> omega
  simp only [put, marker?_eq_some h, h, List.dropLast_concat, hcount]

end EventQueue

/-! ### What a sound queue says of its entries (R136, R138) -/

namespace QueueSound

theorem count_le (h : QueueSound q) {k : BitVec 16} {c : Nat} (hmem : { seq := k, ev := .lost c } ∈ q.entries) :
    c ≤ 65535 := by
  obtain ⟨-, -, -, hcounts, -⟩ := h
  exact (hcounts _ hmem c rfl).2

/-- At most 32 consecutive numbers of 16 bits never repeat. -/
theorem nodup_seqs (h : QueueSound q) : (q.entries.map (·.seq)).Nodup := by
  obtain ⟨hlength, -, -, -, hseqs⟩ := h
  rw [hseqs]
  refine List.pairwise_map.mpr (List.nodup_range.imp_of_mem fun {i j} hi hj hne hij => ?_)
  have hnumbers := congrArg BitVec.toNat hij
  have hbound := q.nextSeq.isLt
  rw [List.mem_range] at hi hj
  simp only [BitVec.toNat_sub, BitVec.toNat_ofNat] at hnumbers
  omega

section Ahead

variable (h : QueueSound q) {front back : List Entry} {e : Entry} (hsplit : q.entries = front ++ e :: back)
include h hsplit

theorem seq_ne_of_mem_front {x : Entry} (hx : x ∈ front) : x.seq ≠ e.seq := by
  have hnodup := h.nodup_seqs
  rw [hsplit, List.map_append, List.nodup_append] at hnodup
  obtain ⟨-, -, hdisjoint⟩ := hnodup
  exact hdisjoint _ (List.mem_map_of_mem hx) _ List.mem_cons_self

/-- No entry ahead of another is a LOST marker. -/
theorem not_lost_of_mem_front {x : Entry} (hx : x ∈ front) : x.ev.isLost = false := by
  obtain ⟨-, -, hmarker, -, -⟩ := h
  refine hmarker x ?_
  rw [hsplit, List.dropLast_append_of_ne_nil (List.cons_ne_nil e back)]
  exact List.mem_append_left _ hx

end Ahead

end QueueSound

/-! ### The entries an acknowledgement removes (R141) -/

theorem Event.lostCount?_eq_none {ev : Event} (h : ev.isLost = false) : ev.lostCount? = none := by
  cases ev with
  | lost c => cases h
  | _ => rfl

/-- With no LOST marker ahead of it, the last entry removed is the only one that can be a marker. -/
theorem lostAmong_concat {front : List Entry} (h : ∀ x ∈ front, x.ev.isLost = false) (e : Entry) :
    lostAmong (front ++ [e]) = e.ev.lostCount? := by
  have hnone : front.findSome? (fun x => x.ev.lostCount?) = none :=
    List.findSome?_eq_none_iff.mpr fun x hx => Event.lostCount?_eq_none (h x hx)
  calc lostAmong (front ++ [e])
      = (front ++ [e]).findSome? (fun x => x.ev.lostCount?) := rfl
    _ = e.ev.lostCount? := by rw [List.findSome?_append, hnone, Option.none_or, List.findSome?_singleton]

/-- In a sound queue a number finds its own entry. -/
theorem QueueSound.findIdx?_seq (h : QueueSound q) {front back : List Entry} {e : Entry}
    (hsplit : q.entries = front ++ e :: back) :
    (q.entries.findIdx? fun x => x.seq.toNat == e.seq.toNat) = some front.length := by
  have hfront : (front.findIdx? fun x => x.seq.toNat == e.seq.toNat) = none := by
    refine List.findIdx?_eq_none_iff.mpr fun x hx => ?_
    exact beq_false_of_ne fun heq => h.seq_ne_of_mem_front hsplit hx (BitVec.eq_of_toNat_eq heq)
  rw [hsplit, List.findIdx?_append, hfront, List.findIdx?_cons, if_pos (beq_self_eq_true _)]
  exact congrArg some (Nat.zero_add _)

theorem ackEvents_accepted (h : QueueSound (s.queue p)) {front back : List Entry} {e : Entry}
    (hsplit : (s.queue p).entries = front ++ e :: back) :
    ackEvents p e.seq.toNat s =
      accept (s.setQueue p { entries := back, nextSeq := (s.queue p).nextSeq }) []
        ([byteOf (front.length + 1), byteOf back.length, flagByte e.ev.lostCount?.isSome]
          ++ bytes2 (e.ev.lostCount?.getD 0)) := by
  have hgone : (s.queue p).entries.take (front.length + 1) = front ++ [e] := by
    rw [hsplit, List.take_length_add_append, List.take_succ_cons, List.take_zero]
  have hleft : (s.queue p).entries.drop (front.length + 1) = back := by
    rw [hsplit, List.drop_length_add_append, List.drop_succ_cons, List.drop_zero]
  have hlost : lostAmong (front ++ [e]) = e.ev.lostCount? :=
    lostAmong_concat (fun x hx => h.not_lost_of_mem_front hsplit hx) e
  simp only [ackEvents, h.findIdx?_seq hsplit, hgone, hleft, hlost, List.length_append, List.length_singleton]

theorem ackEvents_refused {n : Nat} (h : ∀ e ∈ (s.queue p).entries, e.seq.toNat ≠ n) :
    ackEvents p n s = refuse .badArgument s := by
  have hnone : ((s.queue p).entries.findIdx? fun e => e.seq.toNat == n) = none :=
    List.findIdx?_eq_none_iff.mpr fun e he => beq_false_of_ne (h e he)
  simp only [ackEvents, hnone]

/-! ### The command (R141, R156) -/

theorem exec_ackEvents (h : s.serving p = true) (seq hi lo : Byte) :
    exec (.ackEvents p seq [hi, lo]) s =
      .next (((ackEvents p (nat2 hi lo) s).st.post (ackEvents p (nat2 hi lo) s).evs).replied p seq
        (ackEvents p (nat2 hi lo) s).result (ackEvents p (nat2 hi lo) s).payload 6) :=
  congrArg Host.Outcome.next (takeCommand_serving h seq [hi, lo] true (ackEvents p (nat2 hi lo)))

/-- Settles O59, by the marker at the tail for R138 and by the distinct numbers of a sound queue for R141. -/
theorem queueAppendsAndAcknowledges : Obligations.QueueAppendsAndAcknowledges := by
  refine ⟨fun q ev hsound => ⟨fun hmarker hroom => ?_, fun hmarker hfull => ?_, fun k c front hsplit => ?_⟩, ?_, ?_⟩
  · rw [q.put_of_no_marker hmarker, if_pos hroom]
    rfl
  · rw [q.put_of_no_marker hmarker, if_neg (by omega)]
    rfl
  · exact q.put_of_marker hsplit (hsound.count_le (hsplit ▸ List.mem_concat_self)) ev
  · intro s p seq hi lo front back e h hsound hsplit hseq lost
    have hnumber : nat2 hi lo = e.seq.toNat := hseq.symm
    rw [exec_ackEvents h, hnumber, ackEvents_accepted hsound hsplit, accept_st, accept_evs, State.post_nil]
    rfl
  · intro s p seq hi lo h habsent
    have hrefuse : ackEvents p (nat2 hi lo) s = refuse .badArgument s := ackEvents_refused habsent
    rw [exec_ackEvents h, hrefuse, refuse_st, refuse_evs, State.post_nil]
    rfl

end Sys2Proof.Machine
end

section
/-! The queue of waiting commands and the ports as one projection of the state, the operations on the records that leave it as
it is, and the answer of each host command at its block: a refusal, or an acceptance that keeps that projection. -/

namespace Sys2Proof.Machine

/-- What the records of chapters 1 to 8 do not hold: the commands that wait and the Host Port Units. -/
def State.hostSide (s : State) : List Instr × PerPort PortUnit := (s.pending, s.ports)

theorem SameButRoutes.hostSide {s t : State} (h : SameButRoutes s t) : t.hostSide = s.hostSide := by
  unfold SameButRoutes at h; rw [← h]; rfl

/-! ### The shared operations -/

@[simp] theorem post_hostSide (s : State) (es : List Emit) : (s.post es).hostSide = s.hostSide := by
  rw [State.post_eq]; rfl

@[simp] theorem postRuns_hostSide (s : State) (order : Picks) (runs : List (List Emit)) :
    (s.postRuns order runs).hostSide = s.hostSide := by
  rw [State.postRuns_eq]; rfl

@[simp] theorem moveInLanes_hostSide (s : State) (after : Quad Lane) :
    (s.moveInLanes after).hostSide = s.hostSide := by
  rw [moveInLanes_eq]; rfl

theorem changeLane_hostSide (s : State) (l : LaneId) (after : Lane) : (s.changeLane l after).hostSide = s.hostSide := by
  cases l with
  | input i => rw [changeLane_input]; rfl
  | output i => rw [changeLane_output]; rfl

theorem rateSet_hostSide (s : State) (d : Domain) (code : Nat) : (s.rateSet d code).hostSide = s.hostSide := by
  have hset : (s.withRate d code).hostSide = s.hostSide := by
    cases d with
    | fa | fb => rfl
    | fx => unfold State.withRate; dsimp only; split <;> rfl
  unfold State.rateSet
  split <;> exact hset

theorem forRoutes_hostSide {f : Route → State → Eff} (hf : ∀ r s, SameButRoutes s (f r s).st) (ids : List Nat) (s : State) :
    (forRoutes f ids s).1.hostSide = s.hostSide :=
  (forRoutes_same hf ids s).hostSide

theorem close_hostSide (s : State) (p : Port) : (s.close p).eff.st.hostSide = s.hostSide :=
  (forRoutes_hostSide closeHolder_same ..).trans (forRoutes_hostSide (releaseWaiter_same .disconnected true) ..)

theorem releaseLane_hostSide (s : State) (l : LaneId) : (s.releaseLane l).st.hostSide = s.hostSide :=
  (forRoutes_hostSide (releaseHolder_same .endpointDisabled true) ..).trans
    (forRoutes_hostSide (releaseWaiter_same .endpointDisabled true) ..)

/-! ### The answer of a host command at its block (R148, R150, R161) -/

/-- How a host command answers: it is refused, with nothing changed, no event and no payload, or it is accepted with result OK,
and then the waiting commands and the ports are as they were. -/
inductive AnsweredAt (s : State) : Reply → Prop
  | refused (res : Result) : AnsweredAt s (refuse res s)
  | accepted (t : State) (evs : List Emit) (payload : List Byte) (h : t.hostSide = s.hostSide) :
      AnsweredAt s (accept t evs payload)

/-- An acceptance that only reads. -/
theorem AnsweredAt.read (s : State) (payload : List Byte) : AnsweredAt s (accept s [] payload) := .accepted s [] payload rfl

theorem AnsweredAt.hostSide {s : State} {r : Reply} (h : AnsweredAt s r) : r.st.hostSide = s.hostSide := by
  cases h with
  | refused => rfl
  | accepted t evs payload h => exact h

theorem AnsweredAt.eq_refuse {s : State} {r : Reply} (h : AnsweredAt s r) (hr : r.result ≠ .ok) : r = refuse r.result s := by
  cases h with
  | refused => rfl
  | accepted => exact absurd rfl hr

theorem withRoute_answered {s : State} {k : Route → Reply} (id : Nat) (hk : ∀ r, AnsweredAt s (k r)) :
    AnsweredAt s (withRoute id s k) := by
  rcases withRoute_cases id s k with ⟨res, he⟩ | ⟨r, -, he⟩
  · rw [he]; exact .refused res
  · rw [he]; exact hk r

theorem withSink_answered {s : State} {k : Sink → Reply} (b : Byte) (hk : ∀ t, AnsweredAt s (k t)) :
    AnsweredAt s (withSink b s k) := by
  rcases withSink_cases b s k with ⟨res, he⟩ | ⟨t, he⟩
  · rw [he]; exact .refused res
  · rw [he]; exact hk t

theorem withChannel_answered {s : State} {k : Idx → Idx → Reply} (b : Byte) (hk : ∀ l c, AnsweredAt s (k l c)) :
    AnsweredAt s (withChannel b s k) := by
  rcases withChannel_cases b s k with ⟨res, he⟩ | ⟨l, c, he⟩
  · rw [he]; exact .refused res
  · rw [he]; exact hk l c

/-! ### Sessions, the directory, lanes and domains -/

theorem openSession_answered (p : Port) (s : State) : AnsweredAt s (openSession p s) := by
  unfold openSession
  dsimp only
  split
  · exact .refused _
  · exact .accepted _ _ _ rfl

theorem closeSession_answered (p : Port) (s : State) : AnsweredAt s (closeSession p s) :=
  .accepted _ _ _ (close_hostSide s p)

theorem adopt_answered (p : Port) (id : Nat) (s : State) : AnsweredAt s (adopt p id s) := by
  refine withRoute_answered id fun r => ?_
  dsimp only
  split
  · exact .refused _
  · split
    · exact .refused _
    · exact .accepted _ _ _ rfl

theorem describeEndpoint_answered (b : Byte) (s : State) : AnsweredAt s (describeEndpoint b s) := by
  unfold describeEndpoint
  split
  · exact .refused _
  · exact .read ..

theorem setTag_answered (p : Port) (b : Byte) (chars : List Byte) (s : State) : AnsweredAt s (setTag p b chars s) := by
  unfold setTag
  dsimp only
  split
  · exact .refused _
  · next e _ =>
    split
    · exact .refused _
    · exact .accepted _ _ _ (by cases e <;> rfl)

theorem findTag_answered (chars : List Byte) (s : State) : AnsweredAt s (findTag chars s) := by
  unfold findTag
  dsimp only
  split
  · exact .refused _
  · split
    · exact .refused _
    · exact .read ..

theorem applyLane_answered (p : Port) (l : LaneId) (enable : Bool) (d : Domain) (s : State) :
    AnsweredAt s (applyLane p l enable d s) := by
  refine .accepted _ _ _ ((changeLane_hostSide ..).trans ?_)
  split
  · exact releaseLane_hostSide s l
  · rfl

theorem setLane_answered (p : Port) (lb eb db : Byte) (s : State) : AnsweredAt s (setLane p lb eb db s) := by
  unfold setLane
  dsimp only
  split
  · split
    · exact .refused _
    · split
      · exact .refused _
      · exact applyLane_answered ..
  · exact .refused _

theorem setRate_answered (db cb fb : Byte) (s : State) : AnsweredAt s (setRate db cb fb s) := by
  unfold setRate
  dsimp only
  split
  · exact .refused _
  · next d _ =>
    split
    · exact .refused _
    · split
      · exact .refused _
      · exact .accepted _ _ _ (rateSet_hostSide s d cb.toNat)

theorem queryDomain_answered (db : Byte) (s : State) : AnsweredAt s (queryDomain db s) := by
  unfold queryDomain
  split
  · exact .refused _
  · exact .read ..

/-! ### Routes and sinks -/

theorem placeRoute_answered (p : Port) (pl : Placement) (r : Route) (s : State) : AnsweredAt s (placeRoute p pl r s) := by
  have hmade : (s.createRoute p r).hostSide = s.hostSide := (createRoute_same s p r).hostSide
  cases pl with
  | holder => exact .accepted _ _ _ hmade
  | preempt h => exact .accepted _ _ _ ((preemptHolder_same ..).hostSide.trans hmade)
  | wait => exact .accepted _ _ _ hmade
  | sinkBusy => exact .refused _
  | queueFull => exact .refused _

theorem connect_answered (p : Port) (a : ConnectBytes) (s : State) : AnsweredAt s (connect p a s) := by
  rcases connect_cases p a s with ⟨res, he⟩ | ⟨_, _, _, _, _, -, he⟩
  · rw [he]; exact .refused res
  · rw [he]; exact placeRoute_answered ..

theorem disconnect_answered (p : Port) (id : Nat) (s : State) : AnsweredAt s (disconnect p id s) := by
  refine withRoute_answered id fun r => ?_
  dsimp only
  split
  · exact .refused _
  · split
    · exact .accepted _ _ _ (releaseWaiter_same .disconnected false r s).hostSide
    · exact .accepted _ _ _ (releaseHolder_same .disconnected false r s).hostSide
    · exact .accepted _ _ _ (releaseHolder_same .disconnected false r s).hostSide
    · exact .accepted _ _ _ rfl
    · exact .accepted _ _ _ rfl
    · exact .accepted _ _ _ rfl
    · exact .refused _

theorem setGain_answered (p : Port) (id target : Nat) (s : State) : AnsweredAt s (setGain p id target s) := by
  unfold setGain
  split
  · exact .refused _
  · refine withRoute_answered id fun r => ?_
    split
    · exact .refused _
    · split
      · exact .refused _
      all_goals exact .accepted _ _ _ rfl

theorem queryRoute_answered (id : Nat) (s : State) : AnsweredAt s (queryRoute id s) :=
  withRoute_answered id fun _ => .read ..

theorem listRoutes_answered (kind value : Byte) (s : State) : AnsweredAt s (listRoutes kind value s) := by
  unfold listRoutes
  split
  · exact .refused _
  · exact .read ..

theorem querySink_answered (b : Byte) (s : State) : AnsweredAt s (querySink b s) :=
  withSink_answered b fun _ => .read ..

/-! ### Channels, stores and event queues -/

theorem setTrim_answered (p : Port) (b : Byte) (trim : Nat) (s : State) : AnsweredAt s (setTrim p b trim s) := by
  unfold setTrim
  split
  · exact .refused _
  · exact withChannel_answered b fun _ _ => .accepted _ _ _ rfl

theorem resetMeter_answered (b : Byte) (s : State) : AnsweredAt s (resetMeter b s) :=
  withChannel_answered b fun _ _ => .accepted _ _ _ rfl

theorem configureStore_answered (p : Port) (nb cap pol : Byte) (low high : Nat) (s : State) :
    AnsweredAt s (configureStore p nb cap pol low high s) := by
  unfold configureStore
  dsimp only
  repeat' split
  case h_1.isFalse.isFalse.isFalse.isFalse => exact .accepted _ _ _ rfl
  all_goals exact .refused _

theorem storeWrite_answered (nb count : Byte) (xs : List Sample) (s : State) :
    AnsweredAt s (storeWrite nb count xs s) := by
  unfold storeWrite
  dsimp only
  repeat' split
  case h_2.isFalse.isFalse.isFalse => exact .accepted _ _ _ rfl
  all_goals exact .refused _

theorem storeRead_answered (nb count : Byte) (s : State) : AnsweredAt s (storeRead nb count s) := by
  unfold storeRead
  dsimp only
  repeat' split
  case h_2.isFalse.isFalse.isFalse => exact .accepted _ _ _ rfl
  all_goals exact .refused _

theorem flushStore_answered (nb : Byte) (s : State) : AnsweredAt s (flushStore nb s) := by
  unfold flushStore
  dsimp only
  repeat' split
  case h_2.isFalse => exact .accepted _ _ _ rfl
  all_goals exact .refused _

theorem queryStore_answered (nb : Byte) (s : State) : AnsweredAt s (queryStore nb s) := by
  unfold queryStore
  split
  · exact .refused _
  · exact .read ..

theorem readEvents_answered (p : Port) (n : Nat) (s : State) : AnsweredAt s (readEvents p n s) := by
  unfold readEvents
  split
  · exact .refused _
  · exact .read ..

theorem ackEvents_answered (p : Port) (n : Nat) (s : State) : AnsweredAt s (ackEvents p n s) := by
  unfold ackEvents
  dsimp only
  split
  · exact .refused _
  · exact .accepted _ _ _ rfl

/-! ### Every host command -/

/-- A host command is the taking of its frame, with a judgement of its length and an answer of its own at its block. -/
theorem exec_hostCommand {c : Instr} {p : Port} {code seq : Byte} {ps : List Byte}
    (h : hostFrame? c = some (p, code, seq, ps)) :
    ∃ lengthOk needsSession own, (∀ s, exec c s = .next (takeCommand p seq ps lengthOk needsSession own s)) ∧
      ∀ s, AnsweredAt s (own s) := by
  cases c <;> cases h
  case openSession => exact ⟨_, _, _, fun _ => rfl, openSession_answered _⟩
  case closeSession => exact ⟨_, _, _, fun _ => rfl, closeSession_answered _⟩
  case describeEndpoint => exact ⟨_, _, _, fun _ => rfl, describeEndpoint_answered _⟩
  case setTag => exact ⟨_, _, _, fun _ => rfl, setTag_answered _ _ _⟩
  case findTag => exact ⟨_, _, _, fun _ => rfl, findTag_answered _⟩
  case setLane => exact ⟨_, _, _, fun _ => rfl, setLane_answered _ _ _ _⟩
  case setRate => exact ⟨_, _, _, fun _ => rfl, setRate_answered _ _ _⟩
  case queryDomain => exact ⟨_, _, _, fun _ => rfl, queryDomain_answered _⟩
  case connect =>
    refine ⟨_, _, _, fun _ => rfl, fun s => ?_⟩
    split
    · exact connect_answered ..
    · exact .refused _
  case disconnect => exact ⟨_, _, _, fun _ => rfl, disconnect_answered _ _⟩
  case setGain => exact ⟨_, _, _, fun _ => rfl, setGain_answered _ _ _⟩
  case adopt => exact ⟨_, _, _, fun _ => rfl, adopt_answered _ _⟩
  case queryRoute => exact ⟨_, _, _, fun _ => rfl, queryRoute_answered _⟩
  case listRoutes => exact ⟨_, _, _, fun _ => rfl, listRoutes_answered _ _⟩
  case querySink => exact ⟨_, _, _, fun _ => rfl, querySink_answered _⟩
  case setTrim => exact ⟨_, _, _, fun _ => rfl, setTrim_answered _ _ _⟩
  case resetMeter => exact ⟨_, _, _, fun _ => rfl, resetMeter_answered _⟩
  case configureStore => exact ⟨_, _, _, fun _ => rfl, configureStore_answered _ _ _ _ _ _⟩
  case storeWrite => exact ⟨_, _, _, fun _ => rfl, storeWrite_answered _ _ _⟩
  case storeRead => exact ⟨_, _, _, fun _ => rfl, storeRead_answered _ _⟩
  case flushStore => exact ⟨_, _, _, fun _ => rfl, flushStore_answered _⟩
  case queryStore => exact ⟨_, _, _, fun _ => rfl, queryStore_answered _⟩
  case readEvents => exact ⟨_, _, _, fun _ => rfl, readEvents_answered _ _⟩
  case ackEvents => exact ⟨_, _, _, fun _ => rfl, ackEvents_answered _ _⟩

end Sys2Proof.Machine
end

section
/-! The frames a port takes, answers or does not take, and the resets. -/

namespace Sys2Proof.Machine

/-- A frame that a ready port takes is answered by a refusal of the port, or as the command answers at its block. -/
theorem takeCommand_answers {s : State} {p : Port} (h : s.ready p = true) (seq : Byte) (ps : List Byte)
    (lengthOk needsSession : Bool) {own : State → Reply} (hown : AnsweredAt s (own s)) :
    ∃ r, AnsweredAt s r ∧ takeCommand p seq ps lengthOk needsSession own s =
      (r.st.post r.evs).replied p seq r.result r.payload (4 + ps.length) := by
  refine ⟨_, ?_, takeCommand_ready h seq ps lengthOk needsSession own⟩
  split
  · exact .refused _
  · split
    · exact .refused _
    · exact hown

@[simp] theorem State.replied_holder (s : State) (p : Port) (seq : Byte) (res : Result) (payload : List Byte) (n : Nat) :
    ((s.replied p seq res payload n).port p).holder =
      .executing { seq := seq, result := res, payload := payload } := by
  simp [State.replied, State.port]

/-- Settles O20, by the answer of each host command at its block. -/
theorem refusedCommandChangesNothing : Obligations.RefusedCommandChangesNothing := by
  intro c s p code seq ps hc hready
  obtain ⟨lengthOk, needsSession, own, hexec, hown⟩ := exec_hostCommand hc
  obtain ⟨r, hr, htaken⟩ := takeCommand_answers hready seq ps lengthOk needsSession (hown s)
  refine ⟨_, { seq := seq, result := r.result, payload := r.payload }, (hexec s).trans (congrArg _ htaken),
    State.replied_holder .., rfl, fun hres => ?_⟩
  rw [hr.eq_refuse hres]
  simp

theorem Holder.busy_iff {h : Holder} : h.busy = true ↔ ∃ r, h = .executing r := by
  cases h <;> simp [Holder.busy]

/-- A code that names no command is answered by the port itself, with no check of its length or the session (R150). -/
theorem exec_unknownCommand {code : Byte} (h0 : code ≠ 0#8) (hk : knownCode code = false) (p : Port) (seq : Byte)
    (ps : List Byte) (s : State) :
    exec (.unknownCommand p code seq ps) s = .next (takeCommand p seq ps true false (refuse .unknownCommand) s) := by
  simp [exec, execUnknownCommand, h0, hk]

/-! ### Frames that are not taken (R152 to R154) -/

section Busy

variable {s : State} {p : Port} (ht : s.takes p = true) (hw : (s.port p).resetWaiting = false)
  (hb : (s.port p).holder.busy = true)
include ht hw hb

theorem execFrameError_busy {bytes : List Byte} (hf : isCommandFrame bytes = true) (hg : frameGood bytes = false) :
    execFrameError p bytes s = .next (s.driveOnes p bytes.length) := by
  obtain ⟨r, hr⟩ := Holder.busy_iff.mp hb
  simp [execFrameError, ht, hf, hg, State.settle, hw, hr]

theorem execFrameDiscarded_busy {bytes : List Byte} (hf : isCommandFrame bytes = true) :
    execFrameDiscarded p bytes s = .next (s.driveOnes p bytes.length) := by
  obtain ⟨r, hr⟩ := Holder.busy_iff.mp hb
  simp [execFrameDiscarded, ht, hf, hw, hr]

end Busy

/-- Settles O18: a frame of any kind on a port that executes, or takes no transaction. -/
theorem framesNotTakenChangeNothing : Obligations.FramesNotTakenChangeNothing := by
  refine ⟨fun s p ht hw hb => ⟨fun c code seq ps hc => ?_, fun bytes hf hg => execFrameError_busy ht hw hb hf hg,
    fun code seq ps h0 hk => ?_, fun bytes hf => execFrameDiscarded_busy ht hw hb hf⟩,
    fun s p ht => ⟨fun c code seq ps hc => ?_, fun n => ?_, fun bytes => ⟨?_, ?_⟩, fun code seq ps => ?_⟩⟩
  · obtain ⟨_, _, _, hexec, -⟩ := exec_hostCommand hc
    rw [hexec, takeCommand_busy ht hw hb]
    rfl
  · rw [exec_unknownCommand h0 hk, takeCommand_busy ht hw hb]
    rfl
  · obtain ⟨_, _, _, hexec, -⟩ := exec_hostCommand hc
    rw [hexec, takeCommand_not_taken ht]
  · simp [exec, execFetch, ht]
  · simp [exec, execFrameError, ht]
  · simp [exec, execFrameDiscarded, ht]
  · simp [exec, execUnknownCommand, takeCommand_not_taken ht]

/-! ### Frames that are not commands (R146, R147, R150) -/

/-- A frame that is not good passes through EXECUTING and completes in the step of its end (R147). -/
theorem execFrameError_ready {s : State} {p : Port} {bytes : List Byte} (h : s.ready p = true)
    (hf : isCommandFrame bytes = true) (hg : frameGood bytes = false) :
    execFrameError p bytes s = .next
      ((s.setHolder p (.ready { seq := bytes.getD 1 0#8, result := .frameError, payload := [] })).driveOnes p
        bytes.length) := by
  obtain ⟨ht, hw, hb⟩ := ready_spec h
  simp only [execFrameError, ht, hf, hg, State.settle, hw, Bool.not_false, Bool.and_self, if_true, Bool.false_eq_true,
    if_false]
  split
  · next hr => simp [hr, Holder.busy] at hb
  all_goals rfl

/-- A holder set and the bytes of a frame on the wires, as one change of the port. -/
theorem setHolder_driveOnes (s : State) (p : Port) (h : Holder) (n : Nat) :
    (s.setHolder p h).driveOnes p n =
      { s with ports := s.ports.set p { s.ports.get p with holder := h, sent := List.replicate n 0xFF#8 } } := by
  cases p <;> rfl

/-- Settles O17, by what a ready port does with the two kinds of frame. -/
theorem badFramesAnswered : Obligations.BadFramesAnswered := by
  refine ⟨fun s p bytes h hf hg => ?_, fun s p code seq ps h h0 hcode => ?_⟩
  · exact (execFrameError_ready h hf hg).trans (congrArg _ (setHolder_driveOnes ..))
  · have hk : knownCode code = false := by simp [knownCode, hcode]
    rw [exec_unknownCommand h0 hk, takeCommand_ready h]
    simp

/-! ### Device reset (R154) -/

theorem linkAfterReset_eq (l : Link) : linkAfterReset l = if l = .held then .held else .idle := by
  cases l <;> rfl

/-- While RESET is asserted every SDO wire is at high impedance. -/
theorem State.sdo_resetHeld {s : State} (h : s.resetHeld = true) (p : Port) : s.sdo p = none := by
  simp [State.sdo, State.takes, h]

/-- With its session closed and its holder EMPTY a port asserts no attention (R143). -/
theorem State.attention_closed_empty {s : State} {p : Port} (hs : (s.session p).isOpen = false)
    (hh : (s.port p).holder = .empty) : s.attention p = false := by
  simp [State.attention, hs, hh]

/-- Settles O23, from the record that a device reset leaves. -/
theorem deviceResetRestoresRecords : Obligations.DeviceResetRestoresRecords := by
  refine ⟨fun s => ⟨_, rfl, fun p => ⟨State.sdo_resetHeld rfl p, State.attention_closed_empty ?_ ?_⟩, ?_⟩,
    fun s => rfl⟩
  · exact congrArg Session.isOpen (PerPort.get_const _ p)
  · exact congrArg PortUnit.holder (PerPort.get_tab _ p)
  · simp only [linkAfterReset_eq, PortUnit.reset]

end Sys2Proof.Machine
end

section
/-! The frame check as its four conditions, and what the CRC-8 finds: the register is 0 over a record with its own CRC, and one
byte changed changes it. -/

namespace Sys2Proof

/-! ### The frame check (R146) -/

/-- A frame by its parts: a length byte of at most 250 that counts the parameters, and the CRC of all before it (Table 10.1). -/
theorem frameGood_cons {code seq len : Byte} {params : List Byte} {crc : Byte} :
    frameGood (code :: seq :: len :: (params ++ [crc])) = true ↔
      len.toNat ≤ 250 ∧ params.length = len.toNat ∧ crc8 (code :: seq :: len :: params) = crc := by
  simp [frameGood, and_assoc]

/-- A run of at least four bytes is the three header bytes, the parameters and the last byte. -/
theorem exists_frame_of_four_le {bs : List Byte} (h : 4 ≤ bs.length) :
    ∃ code seq len params crc, bs = code :: seq :: len :: (params ++ [crc]) := by
  match bs, h with
  | code :: seq :: len :: x :: rest, _ =>
    exact ⟨code, seq, len, _, _, by rw [List.dropLast_concat_getLast (List.cons_ne_nil x rest)]⟩

theorem four_le_of_frameGood {bs : List Byte} (h : frameGood bs = true) : 4 ≤ bs.length := by
  unfold frameGood at h
  split at h
  · simp only [Bool.and_eq_true, decide_eq_true_eq] at h
    obtain ⟨⟨-, hlen⟩, -⟩ := h
    simp only [List.length_cons, hlen]
    omega
  · cases h

/-- Settles O14, by the parts of a run of at least four bytes. -/
theorem frameGoodIffFourConditions : Obligations.FrameGoodIffFourConditions := by
  intro bs
  by_cases h : 4 ≤ bs.length
  · obtain ⟨code, seq, len, params, crc, rfl⟩ := exists_frame_of_four_le h
    have hsplit : code :: seq :: len :: (params ++ [crc]) = (code :: seq :: len :: params) ++ [crc] := rfl
    rw [frameGood_cons, hsplit, List.getLast?_concat, List.dropLast_concat, Option.some.injEq, eq_comm (a := crc)]
    simp only [List.length_append, List.length_cons, List.length_nil, List.cons_append, List.getD_cons_succ,
      List.getD_cons_zero]
    constructor
    · rintro ⟨hmax, hlen, hcrc⟩
      exact ⟨by omega, hmax, by omega, hcrc⟩
    · rintro ⟨-, hmax, hlen, hcrc⟩
      exact ⟨hmax, by omega, hcrc⟩
  · exact iff_of_false (fun hg => h (four_le_of_frameGood hg)) fun hc => h hc.1

/-! ### The CRC-8 (R163) -/

theorem crc8_append (xs ys : List Byte) : crc8 (xs ++ ys) = ys.foldl crcByte (crc8 xs) := List.foldl_append

/-- Eight shifts of a register that is 0 leave it 0. -/
theorem crcByte_self (c : Byte) : crcByte c c = 0#8 := by
  simp only [crcByte, BitVec.xor_self]
  decide

/-- Over a record with its own CRC appended the CRC is 0. -/
theorem crc8_append_crc8 (bs : List Byte) : crc8 (bs ++ [crc8 bs]) = 0#8 := by
  rw [crc8_append]
  exact crcByte_self (crc8 bs)

/-- The shift undone: after a fold with 0x07 the right end holds the bit that was shifted out. -/
def crcUnshift (c : Byte) : Byte := if c.getLsbD 0 then ((c ^^^ 0x07#8) >>> 1) ||| 0x80#8 else c >>> 1

theorem crcUnshift_crcShift (c : Byte) : crcUnshift (crcShift c) = c := by
  revert c; decide +kernel

theorem crcShift_injective : Function.Injective crcShift := Function.LeftInverse.injective crcUnshift_crcShift

theorem crcShifts_injective : Function.Injective fun c =>
    crcShift (crcShift (crcShift (crcShift (crcShift (crcShift (crcShift (crcShift c))))))) := by
  intro c c' h
  iterate 8 replace h := crcShift_injective h
  exact h

theorem crcByte_inj_byte {c b b' : Byte} : crcByte c b = crcByte c b' ↔ b = b' :=
  crcShifts_injective.eq_iff.trans (BitVec.xor_right_inj c)

theorem crcByte_inj_register {c c' b : Byte} : crcByte c b = crcByte c' b ↔ c = c' :=
  crcShifts_injective.eq_iff.trans (BitVec.xor_left_inj b)

/-- Registers that differ still differ after the same bytes. -/
theorem foldl_crcByte_ne (post : List Byte) {c c' : Byte} (h : c ≠ c') : post.foldl crcByte c ≠ post.foldl crcByte c' := by
  induction post generalizing c c' with
  | nil => exact h
  | cons b post ih => exact ih (mt crcByte_inj_register.mp h)

/-- One byte changed changes the CRC. -/
theorem crc8_ne_of_damaged (pre post : List Byte) {b b' : Byte} (h : b ≠ b') :
    crc8 (pre ++ b :: post) ≠ crc8 (pre ++ b' :: post) := by
  rw [crc8_append, crc8_append]
  exact foldl_crcByte_ne post (mt crcByte_inj_byte.mp h)

/-- A good frame is a record with its own CRC. -/
theorem crc8_eq_zero_of_frameGood {bs : List Byte} (h : frameGood bs = true) : crc8 bs = 0#8 := by
  obtain ⟨code, seq, len, params, crc, rfl⟩ := exists_frame_of_four_le (four_le_of_frameGood h)
  obtain ⟨-, -, rfl⟩ := frameGood_cons.mp h
  exact crc8_append_crc8 (code :: seq :: len :: params)

/-- Settles O15: a damaged frame that is good too would have the CRC 0 as well. -/
theorem crcCatchesOneDamagedByte : Obligations.CrcCatchesOneDamagedByte := by
  refine ⟨crc8_append_crc8, fun pre post b b' h => crc8_ne_of_damaged pre post h, fun pre post b b' h _ hgood => ?_⟩
  rw [Bool.eq_false_iff]
  intro hdamaged
  exact crc8_ne_of_damaged pre post h
    ((crc8_eq_zero_of_frameGood hgood).trans (crc8_eq_zero_of_frameGood hdamaged).symm)

end Sys2Proof
end

section
/-! What is the master's and the sender's alone: the level at CSn, the transactions in progress and the queue of waiting commands.
No command touches them, but for the resets, which end a transaction. -/

namespace Sys2Proof.Machine

/-- The commands that wait, and of each port the level at CSn with the transaction in progress. -/
def State.outside (s : State) : List Instr × PerPort (Bool × Option Transfer) :=
  (s.pending, .tab fun p => ((s.port p).csLow, (s.port p).transfer))

theorem State.outside_of_hostSide {s t : State} (h : t.hostSide = s.hostSide) : t.outside = s.outside := by
  obtain ⟨hpending, hports⟩ := Prod.mk.inj h
  simp only [State.outside, State.port, hpending, hports]

theorem outside_eq_iff {s t : State} :
    t.outside = s.outside ↔ t.pending = s.pending ∧
      ∀ p, (t.port p).csLow = (s.port p).csLow ∧ (t.port p).transfer = (s.port p).transfer := by
  refine Prod.ext_iff.trans (and_congr_right fun _ => ⟨fun h p => ?_, fun h => PerPort.ext_get fun p => ?_⟩)
  · simpa [State.outside] using congrArg (fun v => v.get p) h
  · simpa [State.outside] using h p

/-- A change of a port's link, holder, bytes sent or counts. -/
theorem setPort_outside {s : State} {p : Port} {u : PortUnit} (hcs : u.csLow = (s.port p).csLow)
    (hx : u.transfer = (s.port p).transfer) : (s.setPort p u).outside = s.outside := by
  refine outside_eq_iff.mpr ⟨rfl, fun q => ?_⟩
  rw [State.port_setPort]
  split
  · next h => exact h ▸ ⟨hcs, hx⟩
  · exact ⟨rfl, rfl⟩

/-! ### The frame a port takes, and the reset of a port (R130, R150 to R153) -/

theorem portResetEffects_outside (s : State) (p : Port) : (s.portResetEffects p).outside = s.outside := by
  unfold State.portResetEffects
  dsimp only
  refine Eq.trans (setPort_outside rfl rfl) (State.outside_of_hostSide ?_)
  split
  · rw [post_hostSide, close_hostSide]
  · rfl

theorem settle_outside (s : State) (p : Port) : (s.settle p).outside = s.outside := by
  unfold State.settle
  split
  · exact portResetEffects_outside s p
  · rfl

theorem driveOnes_outside (s : State) (p : Port) (n : Nat) : (s.driveOnes p n).outside = s.outside :=
  setPort_outside rfl rfl

theorem setHolder_outside (s : State) (p : Port) (h : Holder) : (s.setHolder p h).outside = s.outside :=
  setPort_outside rfl rfl

theorem endFetch_outside (s : State) (p : Port) (h : Holder) (n : Nat) : (s.endFetch p h n).outside = s.outside :=
  setPort_outside rfl rfl

theorem takeCommand_outside (p : Port) (seq : Byte) (params : List Byte) (lengthOk needsSession : Bool)
    {own : State → Reply} (hown : ∀ u, AnsweredAt u (own u)) (s : State) :
    (takeCommand p seq params lengthOk needsSession own s).outside = s.outside := by
  have hanswered {r : Reply} (hr : AnsweredAt (s.settle p) r) (resp : Response) (n : Nat) :
      ((r.st.post r.evs).answer p resp n).outside = s.outside := by
    have hposted : (r.st.post r.evs).outside = (s.settle p).outside :=
      State.outside_of_hostSide ((post_hostSide ..).trans hr.hostSide)
    exact (driveOnes_outside ..).trans ((setHolder_outside ..).trans (hposted.trans (settle_outside s p)))
  have hjudged : AnsweredAt (s.settle p)
      (if !lengthOk then refuse .badLength (s.settle p)
        else if needsSession && !((s.settle p).session p).isOpen then refuse .noSession (s.settle p)
        else own (s.settle p)) := by
    split
    · exact .refused _
    · split
      · exact .refused _
      · exact hown _
  unfold takeCommand
  split
  · dsimp only
    split
    · exact (driveOnes_outside ..).trans (settle_outside s p)
    all_goals exact hanswered hjudged _ _
  · rfl

/-! ### The clock domains -/

theorem lockedState_hostSide {s t : State} {d : Domain} (h : lockedState s d = some t) : t.hostSide = s.hostSide := by
  cases d with
  | fa | fb | fx =>
    simp only [lockedState] at h
    split at h <;> cases h
    rfl

theorem execLockComplete_hostSide (d : Domain) (s : State) :
    ∃ t, execLockComplete d s = .next t ∧ t.hostSide = s.hostSide := by
  refine ⟨_, rfl, ?_⟩
  split
  · rfl
  · split
    · rfl
    · next s1 hlocked => exact (post_hostSide (s1.reportStart d) _).trans (lockedState_hostSide hlocked : s1.hostSide = _)

theorem fxClockFound_hostSide (r : Rate) (s : State) : (fxClockFound r s).hostSide = s.hostSide := by
  unfold fxClockFound
  dsimp only
  split
  · exact post_hostSide ..
  · split <;> exact post_hostSide ..
  all_goals rfl

theorem execClockFound_hostSide (r : Rate) (s : State) :
    ∃ t, execClockFound r s = .next t ∧ t.hostSide = s.hostSide := by
  refine ⟨_, rfl, ?_⟩
  split
  · rfl
  · split
    · exact fxClockFound_hostSide ..
    · split
      · exact fxClockFound_hostSide ..
      · rfl

theorem execClockLost_hostSide (s : State) : ∃ t, execClockLost s = .next t ∧ t.hostSide = s.hostSide := by
  refine ⟨_, rfl, ?_⟩
  split
  · rfl
  · dsimp only
    split
    · exact post_hostSide ..
    · exact post_hostSide ..
    all_goals rfl

theorem execHoldoverExpired_hostSide (s : State) :
    ∃ t, execHoldoverExpired s = .next t ∧ t.hostSide = s.hostSide := by
  refine ⟨_, rfl, ?_⟩
  split
  · exact post_hostSide ..
  · rfl

/-! ### Frame boundaries, reports at the blocks, and the Sink Arbiter -/

theorem execFrameBoundary_hostSide (d : Domain) (rx : Quad LaneRx) (order : Picks) (s : State) :
    ∃ t, execFrameBoundary d rx order s = .next t ∧ t.hostSide = s.hostSide := by
  have hcounted : (s.countFrame d).hostSide = s.hostSide := by cases d <;> rfl
  have hrouted : (beforeWrites s d rx).1.hostSide = ((s.countFrame d).moveInLanes (inLanesAfter s d rx)).hostSide :=
    forRoutes_hostSide boundaryAt_same ..
  refine ⟨_, rfl, ?_⟩
  split
  · exact (postRuns_hostSide ..).trans (hrouted.trans ((moveInLanes_hostSide ..).trans hcounted))
  · rfl

theorem takeRouteReport_hostSide {f : Route → State → Eff} (hf : ∀ r s, SameButRoutes s (f r s).st)
    (same : RouteReport → Bool) (rep : RouteReport) (concerns : Route → Bool) (order : Picks) (s : State) :
    (takeRouteReport same rep concerns f order s).hostSide = s.hostSide := by
  unfold takeRouteReport
  split
  · rfl
  · exact (postRuns_hostSide ..).trans (forRoutes_hostSide hf ..)

theorem execLaneDomainStop_hostSide (d : Domain) (order : Picks) (s : State) :
    ∃ t, execLaneDomainStop d order s = .next t ∧ t.hostSide = s.hostSide := by
  refine ⟨_, rfl, ?_⟩
  split
  · rfl
  · exact (postRuns_hostSide ..).trans (moveInLanes_hostSide ..)

theorem execLaneDomainStart_hostSide (d : Domain) (s : State) :
    ∃ t, execLaneDomainStart d s = .next t ∧ t.hostSide = s.hostSide := by
  refine ⟨_, rfl, ?_⟩
  split <;> rfl

theorem execGrant_hostSide (t : Sink) (s : State) : ∃ u, execGrant t s = .next u ∧ u.hostSide = s.hostSide := by
  refine ⟨_, rfl, ?_⟩
  split
  · rfl
  · split
    · rfl
    · exact post_hostSide ..

theorem execWaitTimeout_hostSide (id : Nat) (s : State) :
    ∃ t, execWaitTimeout id s = .next t ∧ t.hostSide = s.hostSide := by
  refine ⟨_, rfl, ?_⟩
  split
  · rfl
  · split
    · exact (post_hostSide ..).trans (releaseWaiter_same ..).hostSide
    · rfl

/-! ### The other transactions of a port, its completion and its release (R146 to R153) -/

theorem execFetch_outside (p : Port) (n : Nat) (s : State) : ∃ t, execFetch p n s = .next t ∧ t.outside = s.outside := by
  refine ⟨_, rfl, ?_⟩
  split
  · exact endFetch_outside ..
  · rfl

theorem execFrameError_outside (p : Port) (bytes : List Byte) (s : State) :
    ∃ t, execFrameError p bytes s = .next t ∧ t.outside = s.outside := by
  refine ⟨_, rfl, ?_⟩
  split
  · dsimp only
    split
    · exact (driveOnes_outside ..).trans (settle_outside s p)
    all_goals exact (driveOnes_outside ..).trans ((setHolder_outside ..).trans (settle_outside s p))
  · rfl

theorem execUnknownCommand_outside (p : Port) (code seq : Byte) (params : List Byte) (s : State) :
    ∃ t, execUnknownCommand p code seq params s = .next t ∧ t.outside = s.outside := by
  refine ⟨_, rfl, ?_⟩
  split
  · exact takeCommand_outside p seq params true false (fun _ => .refused _) s
  · rfl

theorem execFrameDiscarded_outside (p : Port) (bytes : List Byte) (s : State) :
    ∃ t, execFrameDiscarded p bytes s = .next t ∧ t.outside = s.outside := by
  refine ⟨_, rfl, ?_⟩
  split
  · split
    · exact driveOnes_outside ..
    all_goals rfl
  · rfl

theorem execCommandCompletes_outside (p : Port) (s : State) :
    ∃ t, execCommandCompletes p s = .next t ∧ t.outside = s.outside := by
  refine ⟨_, rfl, ?_⟩
  split
  · split
    · exact portResetEffects_outside s p
    · exact setHolder_outside ..
  all_goals rfl

theorem execPortResetRelease_outside (p : Port) (s : State) :
    ∃ t, execPortResetRelease p s = .next t ∧ t.outside = s.outside := by
  refine ⟨_, rfl, ?_⟩
  split
  · exact setPort_outside rfl rfl
  all_goals rfl

/-- PRSTn ends the transaction of its own port, and of no other (R153). -/
theorem execPortReset_outside (p : Port) (s : State) :
    ∃ t, execPortReset p s = .next t ∧
      t.outside = (s.setPort p { s.port p with transfer := none }).outside := by
  refine ⟨_, rfl, ?_⟩
  have hheld (u : PortUnit) (hcs : u.csLow = (s.port p).csLow) (hx : u.transfer = none) :
      (s.setPort p u).outside = (s.setPort p { s.port p with transfer := none }).outside := by
    refine outside_eq_iff.mpr ⟨rfl, fun q => ?_⟩
    simp only [State.port_setPort]
    split
    · exact ⟨hcs, hx⟩
    · exact ⟨rfl, rfl⟩
  dsimp only
  split
  · exact Eq.trans (setPort_outside rfl rfl) (hheld _ rfl rfl)
  all_goals exact Eq.trans (portResetEffects_outside ..) (hheld _ rfl rfl)

/-! ### Every command -/

/-- What a command leaves of the outside: the waiting commands, and at each port that it does not reset the level at CSn and the
transaction in progress. -/
structure LeavesOutside (c : Instr) (s t : State) : Prop where
  pending : t.pending = s.pending
  wires   : ∀ p, c ≠ .portReset p → c ≠ .deviceReset →
    (t.port p).csLow = (s.port p).csLow ∧ (t.port p).transfer = (s.port p).transfer

theorem leavesOutside_of_outside {c : Instr} {o : Outcome} {s : State} (h : ∃ t, o = .next t ∧ t.outside = s.outside) :
    ∃ t, o = .next t ∧ LeavesOutside c s t := by
  obtain ⟨t, ho, hout⟩ := h
  obtain ⟨hpending, hwires⟩ := outside_eq_iff.mp hout
  exact ⟨t, ho, hpending, fun p _ _ => hwires p⟩

theorem leavesOutside_of_hostSide {c : Instr} {o : Outcome} {s : State}
    (h : ∃ t, o = .next t ∧ t.hostSide = s.hostSide) : ∃ t, o = .next t ∧ LeavesOutside c s t :=
  leavesOutside_of_outside (h.imp fun _ ht => ht.imp_right State.outside_of_hostSide)

theorem exec_hostCommand_outside {c : Instr} {p : Port} {code seq : Byte} {ps : List Byte}
    (h : hostFrame? c = some (p, code, seq, ps)) (s : State) : ∃ t, exec c s = .next t ∧ t.outside = s.outside := by
  obtain ⟨lengthOk, needsSession, own, hexec, hown⟩ := exec_hostCommand h
  exact ⟨_, hexec s, takeCommand_outside p seq ps lengthOk needsSession hown s⟩

/-- Every command answers a next state that leaves the outside as it was. -/
theorem exec_leavesOutside (c : Instr) (s : State) : ∃ t, exec c s = .next t ∧ LeavesOutside c s t := by
  cases c with
  | fetch p n => exact leavesOutside_of_outside (execFetch_outside p n s)
  | frameError p bytes => exact leavesOutside_of_outside (execFrameError_outside p bytes s)
  | unknownCommand p code seq ps => exact leavesOutside_of_outside (execUnknownCommand_outside p code seq ps s)
  | frameDiscarded p bytes => exact leavesOutside_of_outside (execFrameDiscarded_outside p bytes s)
  | portReset p =>
    obtain ⟨t, ht, hout⟩ := execPortReset_outside p s
    obtain ⟨hpending, hwires⟩ := outside_eq_iff.mp hout
    refine ⟨t, ht, hpending, fun q hq _ => ?_⟩
    have hne : q ≠ p := fun h => hq (h ▸ rfl)
    simpa [hne] using hwires q
  | portResetRelease p => exact leavesOutside_of_outside (execPortResetRelease_outside p s)
  | deviceReset => exact ⟨_, rfl, rfl, fun _ _ h => absurd rfl h⟩
  | lockComplete d => exact leavesOutside_of_hostSide (execLockComplete_hostSide d s)
  | clockFound r => exact leavesOutside_of_hostSide (execClockFound_hostSide r s)
  | clockLost => exact leavesOutside_of_hostSide (execClockLost_hostSide s)
  | holdoverExpired => exact leavesOutside_of_hostSide (execHoldoverExpired_hostSide s)
  | frameBoundary d rx order => exact leavesOutside_of_hostSide (execFrameBoundary_hostSide d rx order s)
  | routeTableDomainStop d order =>
    exact leavesOutside_of_hostSide ⟨_, rfl, takeRouteReport_hostSide (fun r u => suspend_same _ _ r u) ..⟩
  | routeTableDomainStart d order =>
    exact leavesOutside_of_hostSide ⟨_, rfl, takeRouteReport_hostSide (resume_same _) ..⟩
  | laneDomainStop d order => exact leavesOutside_of_hostSide (execLaneDomainStop_hostSide d order s)
  | laneDomainStart d => exact leavesOutside_of_hostSide (execLaneDomainStart_hostSide d s)
  | sourcesDown lane order =>
    exact leavesOutside_of_hostSide ⟨_, rfl, takeRouteReport_hostSide (fun r u => suspend_same _ _ r u) ..⟩
  | sourcesUp lane order =>
    exact leavesOutside_of_hostSide ⟨_, rfl, takeRouteReport_hostSide (resume_same _) ..⟩
  | grant t => exact leavesOutside_of_hostSide (execGrant_hostSide t s)
  | waitTimeout id => exact leavesOutside_of_hostSide (execWaitTimeout_hostSide id s)
  | commandCompletes p => exact leavesOutside_of_outside (execCommandCompletes_outside p s)
  | resetRelease => exact leavesOutside_of_hostSide ⟨_, rfl, rfl⟩
  | _ => exact leavesOutside_of_outside (exec_hostCommand_outside rfl s)

/-- Settles O2, by what every command leaves of the outside. -/
theorem everyCommandAnswersNext : Obligations.EveryCommandAnswersNext := fun c s =>
  (exec_leavesOutside c s).imp fun _ ht => ht.imp_right LeavesOutside.pending

/-- A command that is taken at once is stepped as from the queue. -/
theorem exec_eq_take (c : Instr) (s : State) : exec c s = .next (s.take c) := by
  obtain ⟨t, ht, -⟩ := exec_leavesOutside c s
  rw [ht, State.take_eq ht]

end Sys2Proof.Machine
end

section
/-! The bits and the bytes of a transaction: how many whole bytes there are, which bit stands where, and the command that the
bytes of a well-formed transaction are. -/

namespace Sys2Proof

/-! ### Bits grouped into bytes (R145) -/

theorem bytesOfBits_of_lt {bits : List Bool} (h : bits.length < 8) : bytesOfBits bits = [] :=
  Machine.bytesOfBits_bitsOfBytes [] h

theorem length_bytesOfBits : ∀ bits : List Bool, (bytesOfBits bits).length = bits.length / 8
  | _ :: _ :: _ :: _ :: _ :: _ :: _ :: _ :: rest => by
    simp only [bytesOfBits, List.length_cons, length_bytesOfBits rest]
    omega
  | [] | [_] | [_, _] | [_, _, _] | [_, _, _, _] | [_, _, _, _, _] | [_, _, _, _, _, _] | [_, _, _, _, _, _, _] => by
    simp [bytesOfBits]

/-- Bits that follow the first eight leave the first byte as it is. -/
theorem headD_bytesOfBits_append {bits : List Bool} (h : 8 ≤ bits.length) (more : List Bool) :
    (bytesOfBits (bits ++ more)).headD 0#8 = (bytesOfBits bits).headD 0#8 := by
  match bits, h with
  | _ :: _ :: _ :: _ :: _ :: _ :: _ :: _ :: _, _ => rfl

theorem length_bitsOfBytes (bs : List Byte) : (bitsOfBytes bs).length = 8 * bs.length := by
  induction bs with
  | nil => rfl
  | cons b bs ih =>
    have hlen : (bitsOfBytes (b :: bs)).length = 8 + (bitsOfBytes bs).length := by
      simp only [bitsOfBytes, List.flatMap_cons, List.length_append, List.length_cons, List.length_nil]
    rw [hlen, ih, List.length_cons]
    omega

/-- The bits of a run of bytes in turn, each byte most significant bit first, and 1 after its end. -/
theorem getD_bitsOfBytes (bs : List Byte) (n : Nat) {k : Nat} (hk : k < 8) :
    (bitsOfBytes bs).getD (8 * n + k) true = (bs.getD n 0xFF#8).getLsbD (7 - k) := by
  induction bs generalizing n with
  | nil =>
    have hones : ∀ j < 8, (0xFF#8).getLsbD (7 - j) = true := by decide
    simpa [bitsOfBytes] using (hones k hk).symm
  | cons b bs ih =>
    have hcons : bitsOfBytes (b :: bs) = [b.getLsbD 7, b.getLsbD 6, b.getLsbD 5, b.getLsbD 4, b.getLsbD 3, b.getLsbD 2,
      b.getLsbD 1, b.getLsbD 0] ++ bitsOfBytes bs := rfl
    cases n with
    | zero =>
      rw [hcons]
      match k, hk with
      | 0, _ | 1, _ | 2, _ | 3, _ | 4, _ | 5, _ | 6, _ | 7, _ => rfl
    | succ n =>
      have hplace : 8 * (n + 1) + k = 8 * n + k + 8 := by omega
      rw [hcons, hplace]
      exact ih n

/-! ### Frames and their commands (R146, Table 10.2) -/

theorem frameGood_encodeFrame (code seq : Byte) {ps : List Byte} (h : ps.length ≤ 250) :
    frameGood (encodeFrame code seq ps) = true := by
  have hlen : (BitVec.ofNat 8 ps.length).toNat = ps.length := Nat.mod_eq_of_lt (by omega)
  exact frameGood_cons.mpr ⟨Nat.le_trans (Nat.le_of_eq hlen) h, hlen.symm, rfl⟩

/-- A code above those of Table 10.2 names no command. -/
theorem commandOf_eq_none {n : Nat} (h : 24 < n) (p : Port) (seq : Byte) (ps : List Byte) : commandOf n p seq ps = none := by
  obtain ⟨k, rfl⟩ := Nat.exists_eq_add_of_lt h
  rw [show 24 + k + 1 = k + 25 by omega]
  rfl

/-- What the part reads from the frame around a command. -/
theorem decodeTransaction_encodeFrame {code : Byte} (hcode : code ≠ 0#8) (p : Port) (seq : Byte) {ps : List Byte}
    (h : ps.length ≤ 250) :
    decodeTransaction p (encodeFrame code seq ps) =
      some ((commandOf code.toNat p seq ps).getD (.unknownCommand p code seq ps)) := by
  have hgood := frameGood_encodeFrame code seq h
  simp only [encodeFrame, List.cons_append] at hgood ⊢
  simp only [decodeTransaction, if_neg hcode, hgood, if_true, List.dropLast_concat]
  cases commandOf code.toNat p seq ps <;> rfl

end Sys2Proof

namespace Sys2Proof.Machine

/-- A host command is the one its code names, and its bytes are its frame. -/
theorem hostFrame?_spec {c : Instr} {p : Port} {code seq : Byte} {ps : List Byte}
    (h : hostFrame? c = some (p, code, seq, ps)) :
    portOf? c = some p ∧ encodeTransaction c = some (encodeFrame code seq ps) ∧ commandOf code.toNat p seq ps = some c ∧
      code ≠ 0#8 ∧ c.wf = paramsFit ps := by
  cases c <;> cases h <;> exact ⟨rfl, rfl, rfl, by decide, rfl⟩

theorem decodeTransaction_hostCommand {c : Instr} {p q : Port} {code seq : Byte} {ps bytes : List Byte}
    (hc : hostFrame? c = some (q, code, seq, ps)) (hwf : c.wf = true) (hp : portOf? c = some p)
    (he : encodeTransaction c = some bytes) : decodeTransaction p bytes = some c := by
  obtain ⟨hport, hbytes, hcommand, hcode, hfit⟩ := hostFrame?_spec hc
  obtain rfl : q = p := Option.some.inj (hport.symm.trans hp)
  obtain rfl := Option.some.inj (hbytes.symm.trans he)
  rw [decodeTransaction_encodeFrame hcode q seq (by simpa [hfit, paramsFit] using hwf), hcommand]
  rfl

/-- The bytes of a well-formed transaction decode to its command, on its own port. -/
theorem decodeTransaction_encodeTransaction {c : Instr} {p : Port} {bytes : List Byte} (hwf : c.wf = true)
    (hp : portOf? c = some p) (he : encodeTransaction c = some bytes) : decodeTransaction p bytes = some c := by
  cases c with
  | fetch q n =>
    cases hp; cases he
    simp [decodeTransaction]
  | frameError q bs =>
    cases hp; cases he
    cases bytes with
    | nil => simp [Instr.wf, isCommandFrame] at hwf
    | cons b bs =>
      simp only [Instr.wf, isCommandFrame, Bool.and_eq_true, decide_eq_true_eq, Bool.not_eq_true'] at hwf
      obtain ⟨hfirst, hbad⟩ := hwf
      simp [decodeTransaction, hfirst, hbad]
  | unknownCommand q code seq ps =>
    cases hp; cases he
    simp only [Instr.wf, knownCode, paramsFit, Bool.and_eq_true, decide_eq_true_eq, Bool.not_eq_true',
      Bool.and_eq_false_iff, decide_eq_false_iff_not] at hwf
    obtain ⟨⟨hcode, hunknown⟩, hfit⟩ := hwf
    have hpos : code.toNat ≠ 0 := fun h => hcode (BitVec.eq_of_toNat_eq h)
    rw [decodeTransaction_encodeFrame hcode p seq hfit, commandOf_eq_none (by omega)]
    rfl
  | frameDiscarded | portReset | portResetRelease | deviceReset | lockComplete | clockFound | clockLost
  | holdoverExpired | frameBoundary | routeTableDomainStop | routeTableDomainStart | laneDomainStop | laneDomainStart
  | sourcesDown | sourcesUp | grant | waitTimeout | commandCompletes | resetRelease => cases he
  | _ => exact decodeTransaction_hostCommand rfl hwf hp he

end Sys2Proof.Machine
end

section
/-! A transaction on the wires of a port, from the falling edge of CSn to its rising edge, with nothing happening in between. -/

namespace Sys2Proof.Machine

@[simp] theorem State.setPort_setPort (s : State) (p : Port) (u v : PortUnit) : (s.setPort p u).setPort p v = s.setPort p v := by
  simp [State.setPort]

/-- Bits clocked in, SCKn falling after each. -/
def State.clockBits (s : State) (p : Port) (bits : List Bool) : State :=
  bits.foldl (fun x b => (x.wire p (.sckRise b)).wire p .sckFall) s

/-- The link state in a transaction by the bits taken: its first whole byte makes it FETCH or COMMAND (R145). -/
def linkOfBits (bits : List Bool) : Link :=
  if bits.length < 8 then .idle else linkOfFirst ((bytesOfBits bits).headD 0#8)

/-- Only the eighth bit of a transaction moves the link. -/
theorem linkOfBits_concat (bits : List Bool) (b : Bool) :
    linkOfBits (bits ++ [b]) =
      if (bits ++ [b]).length = 8 then linkOfFirst ((bytesOfBits (bits ++ [b])).headD 0#8) else linkOfBits bits := by
  have hlen : (bits ++ [b]).length = bits.length + 1 := List.length_append
  unfold linkOfBits
  rcases Nat.lt_trichotomy bits.length 7 with h | h | h
  · rw [if_pos (by omega), if_neg (by omega), if_pos (by omega)]
  · rw [if_neg (by omega), if_pos (by omega)]
  · rw [if_neg (by omega), if_neg (by omega), if_neg (by omega), headD_bytesOfBits_append (by omega)]

/-- The bits of whole bytes, with fewer than eight left over, make the transaction what its first byte says. -/
theorem linkOfBits_bitsOfBytes (first : Byte) (rest : List Byte) {extra : List Bool} (h : extra.length < 8) :
    linkOfBits (bitsOfBytes (first :: rest) ++ extra) = linkOfFirst first := by
  have hlen : ¬(bitsOfBytes (first :: rest) ++ extra).length < 8 := by
    rw [List.length_append, length_bitsOfBytes, List.length_cons]
    omega
  rw [linkOfBits, if_neg hlen, bytesOfBits_bitsOfBytes _ h, List.headD_cons]

/-- The port `u` in a transaction of which these bits have been clocked, each with its falling edge of SCKn. -/
def PortUnit.clocking (u : PortUnit) (bits : List Bool) : PortUnit :=
  { u with
    csLow := true
    link := linkOfBits bits
    transfer := some
      { bits := bits, fetched := if linkOfBits bits = .fetch then some u.holder else none, outBit := bits.length } }

theorem PortUnit.clocking_concat (u : PortUnit) (bits : List Bool) (b : Bool) :
    ((u.clocking bits).takeBit
      { bits := bits, fetched := if linkOfBits bits = .fetch then some u.holder else none, outBit := bits.length }
      b).shiftOut = u.clocking (bits ++ [b]) := by
  simp only [PortUnit.takeBit_eq, PortUnit.clocking, PortUnit.shiftOut, linkOfBits_concat]
  split <;> rfl

/-- The port takes transactions, and none is in progress. -/
structure Rests (s : State) (p : Port) : Prop where
  takes    : s.takes p = true
  link     : (s.port p).link = .idle
  csLow    : (s.port p).csLow = false
  transfer : (s.port p).transfer = none

section Transaction

variable {s : State} {p : Port} (h : Rests s p)
include h

theorem wire_csFall : s.wire p .csFall = s.setPort p ((s.port p).clocking []) := by
  simp [State.wire, PortUnit.clocking, linkOfBits, h.takes, h.link, h.csLow]

omit h in
theorem clockBits_clocking (before bits : List Bool) :
    (s.setPort p ((s.port p).clocking before)).clockBits p bits = s.setPort p ((s.port p).clocking (before ++ bits)) := by
  induction bits generalizing before with
  | nil => rw [List.append_nil]; rfl
  | cons b bits ih =>
    have hbit : ((s.setPort p ((s.port p).clocking before)).wire p (.sckRise b)).wire p .sckFall =
        s.setPort p ((s.port p).clocking (before ++ [b])) := by
      rw [← PortUnit.clocking_concat]
      simp [State.wire, PortUnit.clocking]
    rw [List.append_cons, ← ih, ← hbit]
    rfl

/-- What stands before the rising edge of CSn. -/
theorem clockBits_csFall (bits : List Bool) :
    (s.wire p .csFall).clockBits p bits = s.setPort p ((s.port p).clocking bits) := by
  rw [wire_csFall h, clockBits_clocking, List.nil_append]

/-- The rising edge of CSn leaves the port as it was before the transaction. -/
theorem released_clocking (bits : List Bool) : ((s.port p).clocking bits).released = s.port p := by
  simp only [PortUnit.clocking, PortUnit.released, ← h.link, ← h.csLow, ← h.transfer]

/-- The rising edge of CSn: a FETCH ends, and any other transaction is the command its whole bytes are. -/
theorem wire_csRise (bits : List Bool) :
    (s.setPort p ((s.port p).clocking bits)).wire p .csRise =
      if linkOfBits bits = .fetch then s.endFetch p (s.port p).holder ((bytesOfBits bits).length - 1)
      else ((decodeWire p bits).map s.take).getD s := by
  have hended : s.setPort p ((s.port p).clocking bits).released = s := by rw [released_clocking h, State.setPort_port]
  by_cases hk : linkOfBits bits = .fetch
  · simp only [State.wire, State.port_setPort, if_true, State.setPort_setPort, hended, hk]
    simp [PortUnit.clocking, hk]
  · simp only [State.wire, State.port_setPort, if_true, State.setPort_setPort, hended, if_neg hk]
    simp only [PortUnit.clocking, if_neg hk]
    cases decodeWire p bits <;> rfl

/-- A transaction of fewer than eight bits is ignored (R145). -/
theorem wire_short {extra : List Bool} (hx : extra.length < 8) :
    ((s.wire p .csFall).clockBits p extra).wire p .csRise = s := by
  have hlink : linkOfBits extra = .idle := if_pos hx
  rw [clockBits_csFall h, wire_csRise h, hlink, decodeWire, bytesOfBits_of_lt hx]
  rfl

/-- A transaction of whole bytes leaves the part as its command does. -/
theorem wire_whole {first : Byte} {rest : List Byte} {extra : List Bool} {c : Instr} (hx : extra.length < 8)
    (hc : decodeTransaction p (first :: rest) = some c) :
    ((s.wire p .csFall).clockBits p (bitsOfBytes (first :: rest) ++ extra)).wire p .csRise = s.take c := by
  rw [clockBits_csFall h, wire_csRise h, linkOfBits_bitsOfBytes first rest hx, decodeWire, bytesOfBits_bitsOfBytes _ hx, hc]
  by_cases hf : first = 0#8
  · obtain rfl : .fetch p rest.length = c := by simpa [decodeTransaction, hf] using hc
    have htaken : s.take (.fetch p rest.length) = s.endFetch p (s.port p).holder rest.length :=
      State.take_eq (execFetch_eq rest.length h.takes)
    rw [htaken, hf]
    rfl
  · simp [linkOfFirst, hf]

end Transaction

/-- Settles O13, by the bytes of a transaction and by its bits. -/
theorem decodeReadsEncodedTransaction : Obligations.DecodeReadsEncodedTransaction := by
  refine ⟨fun c p bytes hwf hp he => ?_, fun s p extra hx ht hl hcs htr => wire_short ⟨ht, hl, hcs, htr⟩ hx⟩
  have hdecoded := decodeTransaction_encodeTransaction hwf hp he
  refine ⟨hdecoded, fun s extra hx ht hl hcs htr => ?_⟩
  have hrests : Rests s p := ⟨ht, hl, hcs, htr⟩
  cases bytes with
  | nil => simp [decodeTransaction] at hdecoded
  | cons first rest =>
    have hclocked := clockBits_csFall hrests (bitsOfBytes (first :: rest) ++ extra)
    refine ⟨?_, (exec_eq_take c s).trans (congrArg _ (wire_whole hrests hx hdecoded).symm)⟩
    change ((((s.wire p .csFall).clockBits p (bitsOfBytes (first :: rest) ++ extra)).port p).link) = _
    rw [hclocked, State.port_setPort, if_pos rfl]
    simp [PortUnit.clocking, linkOfBits_bitsOfBytes first rest hx, linkOfFirst]

end Sys2Proof.Machine
end

section
/-! FETCH: its end by the holder, its first byte and its answer on SDOn, bit by bit. -/

namespace Sys2Proof.Machine

/-! ### The end of a FETCH (R148) -/

/-- The holder at the end of a FETCH whose first byte found `h`: READY then and now becomes FETCHED. -/
def Holder.afterFetchOf : (h now : Holder) → Holder
  | .ready _, .ready r => .fetched r
  | _, now => now

theorem Holder.afterFetchOf_eq (h now : Holder) :
    h.afterFetchOf now = match h with
      | .ready _ => now.afterFetch
      | .empty | .executing _ | .fetched _ => now := by
  cases h <;> cases now <;> rfl

theorem State.endFetch_eq (s : State) (p : Port) (h : Holder) (n : Nat) :
    s.endFetch p h n = s.setPort p
      { s.port p with
        holder := h.afterFetchOf (s.port p).holder
        sent := (h.fetchAnswer ++ List.replicate n 0xFF#8).take n } := by
  rw [Holder.afterFetchOf_eq]
  cases h <;> rfl

/-- The whole transaction as one step. -/
theorem exec_fetch {s : State} {p : Port} (ht : s.takes p = true) (n : Nat) :
    exec (.fetch p n) s = .next (s.setPort p
      { s.port p with
        holder := (s.port p).holder.afterFetch
        sent := ((s.port p).holder.fetchAnswer ++ List.replicate n 0xFF#8).take n }) := by
  have hafter : (s.port p).holder.afterFetchOf (s.port p).holder = (s.port p).holder.afterFetch := by
    cases (s.port p).holder <;> rfl
  exact (execFetch_eq n ht).trans (congrArg _ (by rw [State.endFetch_eq, hafter]))

/-- The rising edge of CSn in a FETCH. -/
theorem wire_csRise_fetch {s : State} {p : Port} {x : Transfer} {h : Holder} (hx : (s.port p).transfer = some x)
    (hf : x.fetched = some h) :
    s.wire p .csRise = s.setPort p
      { s.port p with
        link := .idle, csLow := false, transfer := none
        holder := h.afterFetchOf (s.port p).holder
        sent := (h.fetchAnswer ++ List.replicate (x.bits.length / 8 - 1) 0xFF#8).take (x.bits.length / 8 - 1) } := by
  simp [State.wire, hx, hf, State.endFetch_eq, PortUnit.released, length_bytesOfBits]

/-! ### The first byte of a FETCH (R145) -/

/-- The eighth bit of 0 makes the transaction a FETCH, answered by the holder as it then stands. -/
theorem wire_eighth_zero {s : State} {p : Port} {x : Transfer} {b : Bool} (hx : (s.port p).transfer = some x)
    (hlen : x.bits.length = 7) (hzero : ∀ a ∈ x.bits ++ [b], a = false) :
    s.wire p (.sckRise b) = s.setPort p
      { s.port p with
        link := .fetch
        transfer := some { bits := x.bits ++ [b], fetched := some (s.port p).holder, outBit := x.outBit } } := by
  have hbits : x.bits ++ [b] = List.replicate 8 false :=
    List.eq_replicate_iff.mpr ⟨by simp [hlen], hzero⟩
  have hkind : linkOfFirst ((bytesOfBits (List.replicate 8 false)).headD 0#8) = .fetch := by decide
  simp only [State.wire, hx, PortUnit.takeBit_eq, hbits, List.length_replicate, if_true, hkind]

/-- A bit taken is kept; only the eighth may fix the holder that answers. -/
theorem PortUnit.takeBit_transfer (u : PortUnit) (x : Transfer) (b : Bool) :
    ∃ f, (u.takeBit x b).transfer = some { x with bits := x.bits ++ [b], fetched := f } ∧
      (x.bits.length ≠ 7 → f = x.fetched) := by
  rw [PortUnit.takeBit_eq]
  exact ⟨_, rfl, fun h => if_neg (by simpa using h)⟩

theorem PortUnit.takeBit_link {u : PortUnit} {x : Transfer} {b : Bool} (h : u.link ≠ .held) :
    (u.takeBit x b).link ≠ .held := by
  rw [PortUnit.takeBit_eq]
  dsimp only
  split
  · unfold linkOfFirst; split <;> simp
  · exact h

/-! ### The level at SDOn (R145, R148, R153 to R155) -/

theorem State.link_of_takes {s : State} {p : Port} (h : s.takes p = true) : (s.port p).link ≠ .held := by
  simpa [State.takes] using (Bool.and_eq_true_iff.mp h).2

theorem State.takes_setPort {s : State} {p : Port} {u : PortUnit} (h : u.link ≠ .held) (ht : s.takes p = true) :
    (s.setPort p u).takes p = true := by
  simp only [State.takes, Bool.and_eq_true, Bool.not_eq_true'] at ht
  simp [State.takes, ht.1, h]

/-- In a transaction of a port that takes it, SDOn carries the transaction's bit. -/
theorem sdo_transfer {s : State} {p : Port} {x : Transfer} (ht : s.takes p = true) (hcs : (s.port p).csLow = true)
    (hx : (s.port p).transfer = some x) : s.sdo p = some x.sdoBit := by
  simp [State.sdo, ht, hcs, hx]

theorem sdo_none {s : State} {p : Port} (h : (s.port p).csLow = false ∨ s.takes p = false) : s.sdo p = none := by
  rcases h with h | h <;> simp [State.sdo, h]

/-- Of a command frame, and of the first byte of any transaction, every bit is 1. -/
theorem sdoBit_ones {x : Transfer} (h : x.fetched = none ∨ x.outBit < 8) : x.sdoBit = true := by
  unfold Transfer.sdoBit
  split
  · rfl
  · next holder hf =>
    rw [if_pos]
    simpa [hf] using h

/-- From the second byte of a FETCH on, the bits of the answer, and 1 after its end. -/
theorem sdoBit_answer {x : Transfer} {h : Holder} {n k : Nat} (hf : x.fetched = some h) (hout : x.outBit = 8 + 8 * n + k)
    (hk : k < 8) : x.sdoBit = (h.fetchAnswer.getD n 0xFF#8).getLsbD (7 - k) := by
  have hplace : 8 + 8 * n + k - 8 = 8 * n + k := by omega
  simp only [Transfer.sdoBit, hf, hout, hplace, getD_bitsOfBytes _ n hk]
  rw [if_neg (by omega)]

section Transfer

variable {s : State} {p : Port} {x : Transfer} (ht : s.takes p = true) (hcs : (s.port p).csLow = true)
  (hx : (s.port p).transfer = some x)
include ht hcs hx

/-- A falling edge of SCKn puts the next bit on SDOn. -/
theorem sdo_sckFall : (s.wire p .sckFall).sdo p = some ({ x with outBit := x.bits.length } : Transfer).sdoBit := by
  have hshift : (s.port p).shiftOut = { s.port p with transfer := some { x with outBit := x.bits.length } } := by
    simp [PortUnit.shiftOut, hx]
  simp only [State.wire, hshift]
  exact sdo_transfer (State.takes_setPort (State.link_of_takes ht) ht) (by simp [hcs]) (by simp)

/-- A rising edge of SCKn leaves SDOn as it is: a holder that the eighth bit fixes decides no bit of the first byte. -/
theorem sdo_sckRise (hsound : PortSound (s.port p)) (b : Bool) : (s.wire p (.sckRise b)).sdo p = s.sdo p := by
  obtain ⟨f, htaken, hf⟩ := (s.port p).takeBit_transfer x b
  have hwire : s.wire p (.sckRise b) = s.setPort p ((s.port p).takeBit x b) := by simp [State.wire, hx]
  rw [hwire, sdo_transfer ht hcs hx,
    sdo_transfer (State.takes_setPort (PortUnit.takeBit_link (State.link_of_takes ht)) ht)
      (by simpa [PortUnit.takeBit_eq] using hcs) (by simpa using htaken)]
  obtain ⟨-, -, -, htransfer⟩ := hsound
  obtain ⟨-, hout, hfetched, hkind⟩ := htransfer x hx
  by_cases h7 : x.bits.length = 7
  · have hnone : x.fetched = none := by
      rw [hkind, if_pos (by omega)] at hfetched
      simpa using hfetched
    have hfirst : x.outBit < 8 := by omega
    rw [sdoBit_ones (x := x) (.inl hnone)]
    exact congrArg some (sdoBit_ones (.inr hfirst))
  · rw [hf h7]
    rfl

end Transfer

/-! ### Nothing but a reset touches a transaction -/

theorem exec_leaves_transfer {c : Instr} {s t : State} {p : Port} (h : exec c s = .next t) (hp : c ≠ .portReset p)
    (hd : c ≠ .deviceReset) : (t.port p).transfer = (s.port p).transfer ∧ (t.port p).csLow = (s.port p).csLow := by
  obtain ⟨u, hu, hleaves⟩ := exec_leavesOutside c s
  obtain rfl : u = t := Host.Outcome.next.inj (hu.symm.trans h)
  exact (hleaves.wires p hp hd).symm

/-- Settles O16, by the end of a FETCH, its first byte, and the bit that stands on SDOn. -/
theorem fetchAnswersFromHolder : Obligations.FetchAnswersFromHolder := by
  unfold Obligations.FetchAnswersFromHolder
  intro record answer drive
  have hanswer : answer = Holder.fetchAnswer := funext fun h => by cases h <;> rfl
  clear_value answer
  subst hanswer
  refine ⟨fun s p n ht => ?_, fun s p x b hx hlen hzero => wire_eighth_zero hx hlen hzero,
    fun c s t p h hp hd => exec_leaves_transfer h hp hd, fun s p x h hx hf => ?_,
    fun s p x ht hcs hx => ⟨fun hones => ?_, fun h n k hf hbits hk => ?_, fun hsound b => sdo_sckRise ht hcs hx hsound b⟩,
    fun s p h => sdo_none h⟩
  · rw [exec_fetch ht]
    dsimp only
    cases (s.port p).holder <;> rfl
  · exact wire_csRise_fetch hx hf
  · exact (sdo_sckFall ht hcs hx).trans (congrArg some (sdoBit_ones hones))
  · exact (sdo_sckFall ht hcs hx).trans (congrArg some (sdoBit_answer hf hbits hk))

end Sys2Proof.Machine
end
